-- ==== Sys2Proof/Word.lean ====
section
/-!
DEFINITION. The words of the tape block: the widths of 00_scope.md R10 and of 10_state.md, and the
two pulse symbols of 00_scope.md R13.
-/
namespace Sys2Proof

/-- A pulse symbol, a line level or a one-bit register (R10, R13). -/
abbrev Bit := Bool

/-- SHORT, the pulse symbol 0 (R13, R91). -/
abbrev short : Bit := false

/-- LONG, the pulse symbol 1 (R13, R91). -/
abbrev long : Bit := true

/-- A state code of either FSM (R10). -/
abbrev Code := BitVec 4

/-- A buffer byte or a command word (R10, R112). -/
abbrev Byte := BitVec 8

/-- A checksum, a declared length or the tape counter (R10, R33). -/
abbrev Half := BitVec 16

/-- An offset counter or a value recorded in a log event (R24, R36, R34). -/
abbrev Count := BitVec 32

/-- A clock value in microseconds (R43, R253). -/
abbrev Time := BitVec 64

end Sys2Proof
end

