-- ==== Sys2Proof/Config.lean ====
section
/-!
DEFINITION. The parameters of 00_scope.md R8: a record the operations take as an argument, and the
one record `Config.machine` the machine runs with.  The four parameters DOC0 leaves open are the
fields of an opaque constant, so no proof can see a value of them.
-/
namespace Sys2Proof

/-- The implementation parameters of R8, under the names of its table. -/
structure Config where
  /-- `R_BGAP`: SHORT pulses the reader emits as the big gap. -/
  rBgap : Nat
  /-- `BTM`: pulses of the big tape mark, the first half LONG. -/
  btm : Nat
  /-- `HDR_BYTES`: header size in bytes. -/
  hdrBytes : Nat
  /-- `CKS_BITS`: checksum bits per section. -/
  cksBits : Nat
  /-- `R_SGAP`: SHORT pulses the reader emits as the small gap. -/
  rSgap : Nat
  /-- `STM`: pulses of the small tape mark, the first half LONG. -/
  stm : Nat
  /-- `LEN_OFF`: header offset of the declared length's low byte. -/
  lenOff : Nat
  /-- `NAME_OFF`: first byte of the filename field. -/
  nameOff : Nat
  /-- `NAME_MAX`: maximum length of the filename. -/
  nameMax : Nat
  /-- `NAME_END`: the filename sentinel byte. -/
  nameEnd : Byte
  /-- `W_THRESH_US`: the writer's SHORT/LONG threshold in microseconds. -/
  wThreshUs : Nat
  /-- `WBGAP_L`: SHORT pulses the writer expects as the big gap (open, P1). -/
  wbgapL : Nat
  /-- `W_SKIP4`: pulses discarded in Skip(4) (open, P2). -/
  wSkip4 : Nat
  /-- `W_SKIP10(n)`: pulses discarded in Skip(10) for declared length `n` (open, P3). -/
  wSkip10 : Half → Nat
  /-- `BODY_MAX`: capacity of the body buffer in bytes (open, P4). -/
  bodyMax : Nat

/-- The four open parameters, each in a type that carries the bound the spec sets:
`WBGAP_L` below 2^32 - 81 (P1), the skip counts below 2^32 (R215), and `BODY_MAX` between 1 and
65536 (P4), held as its predecessor. -/
structure OpenParams where
  wbgapL : Fin 4294967215
  wSkip4 : Fin 4294967296
  wSkip10 : Half → Fin 4294967296
  bodyMaxPred : Fin 65536
  deriving Inhabited

/-- DESIGN CHOICE (safe), log entry 4: DOC0 gives no value for P1 to P4, so they are one constant
without a body. -/
opaque Config.openParams : OpenParams

/-- A configuration with DOC0's default for every parameter that has one (R8) and the given values
for the four open ones. Log entry 5. -/
def Config.withOpen (p : OpenParams) : Config where
  rBgap := 120
  btm := 80
  hdrBytes := 128
  cksBits := 16
  rSgap := 120
  stm := 40
  lenOff := 18
  nameOff := 1
  nameMax := 17
  nameEnd := 0x0D#8
  wThreshUs := 400
  wbgapL := p.wbgapL.val
  wSkip4 := p.wSkip4.val
  wSkip10 := fun n => (p.wSkip10 n).val
  bodyMax := p.bodyMaxPred.val + 1

/-- The configuration the machine runs with. -/
def Config.machine : Config := Config.withOpen Config.openParams

/-- `HDR_BITS = 8 x HDR_BYTES` (R8). -/
def Config.hdrBits (c : Config) : Nat := 8 * c.hdrBytes

/-- `R_PRE_LEN = R_BGAP + BTM + 1` (R9). -/
def Config.rPreLen (c : Config) : Nat := c.rBgap + c.btm + 1

/-- `R_BPRE_LEN = 1 + R_SGAP + STM + 1` (R9). -/
def Config.rBpreLen (c : Config) : Nat := 1 + c.rSgap + c.stm + 1

/-- `W_PRE_LEN = WBGAP_L + BTM + 1` (R9). -/
def Config.wPreLen (c : Config) : Nat := c.wbgapL + c.btm + 1

/-- `BYTE_FRAME`: pulses per byte (R9). -/
def Config.byteFrame : Nat := 9

/-- `HDR_PULSES = 9 x HDR_BYTES` (R9). -/
def Config.hdrPulses (c : Config) : Nat := Config.byteFrame * c.hdrBytes

/-- `CKS_PULSES = 9 x 2` (R9). -/
def Config.cksPulses : Nat := Config.byteFrame * 2

/-- The pulses of one complete read of an image of declared length `n` (R9). -/
def Config.readPulses (c : Config) (n : Nat) : Nat :=
  c.rPreLen + c.hdrPulses + Config.cksPulses + c.rBpreLen + Config.byteFrame * n + Config.cksPulses + 1

/-- The pulses a complete write of declared length `n` consumes (42_write_fsm.md R212). -/
def Config.writePulses (c : Config) (n : Half) : Nat :=
  c.wPreLen + c.hdrPulses + Config.cksPulses + c.wSkip4 + Config.byteFrame * n.toNat + Config.cksPulses
    + c.wSkip10 n + 1

end Sys2Proof
end

