-- ==== Sys2Proof/Syntax.lean ====
section
/-!
DEFINITION. The instructions: one constructor per row of spec/opcode_table.json (30_encoding.md
R114), the three encoding spaces they live in, and the image PRELOAD carries on its side channel.
-/
namespace Sys2Proof

/-- The three encoding spaces of R114: a command word on `cmd[7:0]`, a state code in `rstate`, a
state code in `wstate`. -/
inductive Space where
  | command
  | readState
  | writeState
  deriving DecidableEq, Repr

/-- One constructor per row of the opcode table. The operand `b` of the three commands that have one
is bit 0 of the command word (R112); clock value and PRELOAD image are side inputs of the state. -/
inductive Instr where
  -- commands (R112)
  | readBit
  | writeBit (b : Bit)
  | reset
  | preload
  | setMotor (b : Bit)
  | setSense (b : Bit)
  | senseToggle
  -- read state handlers (R103)
  | rIdle
  | rPreamble
  | rHeader
  | rHdrCks
  | rUnknown4
  | rUnknown5
  | rUnknown6
  | rBodyPre
  | rBody
  | rBodyCks
  | rUnknown10
  | rUnknown11
  | rUnknown12
  | rStop
  | rUnknown14
  | rUnknown15
  -- write state handlers (R104)
  | wIdle
  | wPreamble
  | wHeader
  | wHdrCks
  | wSkip4
  | wUnknown5
  | wUnknown6
  | wUnknown7
  | wBody
  | wBodyCks
  | wSkip10
  | wUnknown11
  | wUnknown12
  | wStop
  | wUnknown14
  | wUnknown15
  deriving DecidableEq, Repr

/-- The space an instruction is encoded in. -/
def Instr.space : Instr → Space
  | .readBit | .writeBit _ | .reset | .preload | .setMotor _ | .setSense _ | .senseToggle => .command
  | .rIdle | .rPreamble | .rHeader | .rHdrCks | .rUnknown4 | .rUnknown5 | .rUnknown6 | .rBodyPre
  | .rBody | .rBodyCks | .rUnknown10 | .rUnknown11 | .rUnknown12 | .rStop | .rUnknown14
  | .rUnknown15 => .readState
  | .wIdle | .wPreamble | .wHeader | .wHdrCks | .wSkip4 | .wUnknown5 | .wUnknown6 | .wUnknown7
  | .wBody | .wBodyCks | .wSkip10 | .wUnknown11 | .wUnknown12 | .wStop | .wUnknown14
  | .wUnknown15 => .writeState

/-- A tape image as PRELOAD carries it: the header block and the body bytes (R106, R140). -/
structure Image where
  header : List Byte
  body   : List Byte
  deriving DecidableEq, Repr

end Sys2Proof
end

