-- ==== Sys2Proof/WellFormed.lean ====
section
/-!
DEFINITION. What makes an instruction and a configuration well formed.
The checks on a PRELOAD image stand in Machine/Image.lean.
-/
namespace Sys2Proof

/-- Every operand of an instruction is one bit of its word (30_encoding.md R112), so every term of
`Instr` is an instruction: an argument of WRITE_BIT other than 0 or 1 cannot be expressed
(93_implementation_defined.md U4). -/
def Instr.wellFormed : Instr → Bool
  | .readBit | .writeBit _ | .reset | .preload | .setMotor _ | .setSense _ | .senseToggle => true
  | .rIdle | .rPreamble | .rHeader | .rHdrCks | .rUnknown4 | .rUnknown5 | .rUnknown6 | .rBodyPre
  | .rBody | .rBodyCks | .rUnknown10 | .rUnknown11 | .rUnknown12 | .rStop | .rUnknown14
  | .rUnknown15 => true
  | .wIdle | .wPreamble | .wHeader | .wHdrCks | .wSkip4 | .wUnknown5 | .wUnknown6 | .wUnknown7
  | .wBody | .wBodyCks | .wSkip10 | .wUnknown11 | .wUnknown12 | .wStop | .wUnknown14
  | .wUnknown15 => true

/-- What the rules ask of a configuration, in whichever way the parameters are set: the tape marks
have two halves (00_scope.md R8), a checksum is two bytes (R10), the length field lies in the
header, the body buffer is within R8's bounds, and no counter can wrap (42_write_fsm.md R215). -/
structure Config.WellFormed (c : Config) : Prop where
  btm_even    : c.btm % 2 = 0
  stm_even    : c.stm % 2 = 0
  cks_two     : c.cksBits = 16
  len_inside  : c.lenOff + 1 < c.hdrBytes
  hdr_count   : c.hdrBits < 2 ^ 32
  rpre_count  : c.rPreLen < 2 ^ 32
  rbpre_count : c.rBpreLen < 2 ^ 32
  wpre_count  : c.wPreLen < 2 ^ 32
  skip4_count : c.wSkip4 < 2 ^ 32
  skip10_count : ∀ n, c.wSkip10 n < 2 ^ 32
  body_pos    : 1 ≤ c.bodyMax
  body_bound  : c.bodyMax ≤ 65536

end Sys2Proof
end

