-- ==== Sys2Proof/Decode.lean ====
section
/-!
DEFINITION. The decoder and, after it, the encoder of the three spaces of 30_encoding.md R114: total
on any bytes, a byte that is no instruction rejected by name.
-/
namespace Sys2Proof

/-- Why a byte is no instruction. -/
inductive DecodeError where
  /-- There is no byte to decode. -/
  | noByte
  /-- R112: "Every other value of `cmd` is not an operation". -/
  | notAnOperation (cmd : Byte)
  /-- A state code is 4 bits (R10): a byte of 16 or more is none. -/
  | notAStateCode (b : Byte)
  deriving DecidableEq, Repr

/-- A row of R112's table: the bits a command word must carry under a mask, and the operation. -/
structure CommandRow where
  mask    : Byte
  pattern : Byte
  build   : Bit → Instr

/-- R112's table, row by row. -/
def commandTable : List CommandRow :=
  [ ⟨0xFF#8, 0x10#8, fun _ => .readBit⟩,
    ⟨0xFE#8, 0x20#8, .writeBit⟩,
    ⟨0xFF#8, 0x30#8, fun _ => .reset⟩,
    ⟨0xFF#8, 0x40#8, fun _ => .preload⟩,
    ⟨0xFE#8, 0x50#8, .setMotor⟩,
    ⟨0xFE#8, 0x60#8, .setSense⟩,
    ⟨0xFF#8, 0x70#8, fun _ => .senseToggle⟩ ]

/-- The operation of a command word (R112): the row whose pattern it carries, with `cmd[0]` as the
operand. -/
def decodeCommand (cmd : Byte) : Option Instr :=
  (commandTable.find? fun r => cmd &&& r.mask == r.pattern).map fun r => r.build (cmd.getLsbD 0)

/-- The handler of a read state code (R103). -/
def decodeReadCode (code : Code) : Instr :=
  match code.toNat with
  | 0 => .rIdle
  | 1 => .rPreamble
  | 2 => .rHeader
  | 3 => .rHdrCks
  | 4 => .rUnknown4
  | 5 => .rUnknown5
  | 6 => .rUnknown6
  | 7 => .rBodyPre
  | 8 => .rBody
  | 9 => .rBodyCks
  | 10 => .rUnknown10
  | 11 => .rUnknown11
  | 12 => .rUnknown12
  | 13 => .rStop
  | 14 => .rUnknown14
  | _ => .rUnknown15

/-- The handler of a write state code (R104). -/
def decodeWriteCode (code : Code) : Instr :=
  match code.toNat with
  | 0 => .wIdle
  | 1 => .wPreamble
  | 2 => .wHeader
  | 3 => .wHdrCks
  | 4 => .wSkip4
  | 5 => .wUnknown5
  | 6 => .wUnknown6
  | 7 => .wUnknown7
  | 8 => .wBody
  | 9 => .wBodyCks
  | 10 => .wSkip10
  | 11 => .wUnknown11
  | 12 => .wUnknown12
  | 13 => .wStop
  | 14 => .wUnknown14
  | _ => .wUnknown15

/-- The state code a byte holds: its low four bits, where the high four are zero. -/
def stateCode (b : Byte) : Option Code :=
  if b.toNat < 16 then some (b.setWidth 4) else none

/-- Decode the first byte, read from the given space. -/
def decode (sp : Space) (bytes : List Byte) : Except DecodeError (Instr × List Byte) :=
  match bytes with
  | [] => .error .noByte
  | b :: rest =>
    match sp with
    | .command =>
      match decodeCommand b with
      | some i => .ok (i, rest)
      | none => .error (.notAnOperation b)
    | .readState =>
      match stateCode b with
      | some code => .ok (decodeReadCode code, rest)
      | none => .error (.notAStateCode b)
    | .writeState =>
      match stateCode b with
      | some code => .ok (decodeWriteCode code, rest)
      | none => .error (.notAStateCode b)

/-- The operand bit as `cmd[0]`. -/
def bitByte (b : Bit) : Byte := if b then 1#8 else 0#8

/-- The word of an instruction: R112's pattern for a command, the state code for a handler (R103,
R104). -/
def encodeByte : Instr → Byte
  | .readBit => 0x10#8
  | .writeBit b => 0x20#8 ||| bitByte b
  | .reset => 0x30#8
  | .preload => 0x40#8
  | .setMotor b => 0x50#8 ||| bitByte b
  | .setSense b => 0x60#8 ||| bitByte b
  | .senseToggle => 0x70#8
  | .rIdle | .wIdle => 0#8
  | .rPreamble | .wPreamble => 1#8
  | .rHeader | .wHeader => 2#8
  | .rHdrCks | .wHdrCks => 3#8
  | .rUnknown4 | .wSkip4 => 4#8
  | .rUnknown5 | .wUnknown5 => 5#8
  | .rUnknown6 | .wUnknown6 => 6#8
  | .rBodyPre | .wUnknown7 => 7#8
  | .rBody | .wBody => 8#8
  | .rBodyCks | .wBodyCks => 9#8
  | .rUnknown10 | .wSkip10 => 10#8
  | .rUnknown11 | .wUnknown11 => 11#8
  | .rUnknown12 | .wUnknown12 => 12#8
  | .rStop | .wStop => 13#8
  | .rUnknown14 | .wUnknown14 => 14#8
  | .rUnknown15 | .wUnknown15 => 15#8

/-- The words of an instruction: one byte, in the space `i.space`. -/
def encode (i : Instr) : List Byte := [encodeByte i]

/-- The instruction the decoder reads from a word numbered as the opcode table numbers it: a command
word where it is one, else a state code. DESIGN CHOICE (safe), log entry 7: the table gives the read
and the write state codes the same words, so a code without its register is read as `rstate`'s. -/
def decodeTableWord (_nbits w : Nat) : Option Instr :=
  if w < 256 then
    match decode .command [BitVec.ofNat 8 w] with
    | .ok (i, _) => some i
    | .error _ =>
      match decode .readState [BitVec.ofNat 8 w] with
      | .ok (i, _) => some i
      | .error _ => none
  else none

end Sys2Proof
end

