-- ==== Sys2Proof/Machine/State.lean ====
section
/-!
DEFINITION. The state of the tape block (10_state.md), plain data: the two cursors, the gates, the
tape counter, the two buffers, the event history and the ports operations come in on; the reasons a
step can stop; and the power-on state (R49).
-/
namespace Sys2Proof.Machine

/-- A buffer: its non-zero bytes by index, indices rising. An index that is not listed reads as
zero, the power-on content of both buffers (10_state.md R45, R46). -/
abbrev Memory := List Host.Cell

/-- `rphase` (R23): the position in the three-level pulse frame. Its three values are the codes 0, 1
and 2. Log entry 10. -/
inductive Phase where
  /-- 0: the next READ_BIT returns the leading high. -/
  | lead
  /-- 1: the next READ_BIT is the advancing call. -/
  | data
  /-- 2: the next READ_BIT returns the trailing low. -/
  | trail
  deriving DecidableEq, Repr

/-- The read cursor (R22 to R28). -/
@[ext]
structure ReadCursor where
  rstate : Code
  rphase : Phase
  rcnt   : Count
  rsync  : Bit
  rsum   : Half
  rblen  : Half
  rcks   : Half
  deriving DecidableEq, Repr

/-- The write cursor (R35 to R43). -/
@[ext]
structure WriteCursor where
  wstate : Code
  wcnt   : Count
  wsync  : Bit
  wsum   : Half
  wblen  : Half
  wbyte  : Byte
  wcks   : Half
  wline  : Bit
  wt0    : Time
  deriving DecidableEq, Repr

/-- The event codes of the log port (60_exceptions.md R242). -/
inductive LogCode where
  | rUnknownState
  | wUnknownState
  | wPreambleMismatch
  | wHdrCksMismatch
  | wBodyCksMismatch
  | wStopMismatch
  deriving DecidableEq, Repr

/-- One entry of the block's output history (R21, R34): a log triple (R241) or a PERSIST request with
its snapshot of the buffers (40_interface_ops.md R142). -/
inductive Event where
  | log (code : LogCode) (a b : Count)
  | persist (header body : List Byte) (n : Half)
  deriving DecidableEq, Repr

/-- The side inputs of an operation (92_eei_decisions.md D2): the clock value WRITE_BIT samples and
the image PRELOAD takes. -/
structure SideInput where
  now   : Time
  image : Image
  deriving DecidableEq, Repr

/-- An operation issued by the environment: its command word (R112) and its side inputs. -/
structure Input where
  cmd  : Byte
  side : SideInput
  deriving DecidableEq, Repr

/-- The complete state (R21), with the block's outputs and the model's own two input fields. -/
@[ext]
structure State where
  /-- The read cursor. -/
  rd     : ReadCursor
  /-- The write cursor. -/
  wr     : WriteCursor
  /-- R30. -/
  motor  : Bit
  /-- R31. -/
  sense  : Bit
  /-- R33. -/
  tcount : Half
  /-- R45: indices 0 to `HDR_BYTES` - 1. -/
  header : Memory
  /-- R46: indices 0 to `BODY_MAX` - 1. -/
  body   : Memory
  /-- R21, R34: the log port and the PERSIST requests, oldest first. -/
  events : List Event
  /-- `rd_data` of the operation just executed, where it has one (R13, D2). -/
  rdData : Option Bit
  /-- The model's own: the side inputs latched with the operation in execution. -/
  port   : SideInput
  /-- The model's own: the operations issued and not yet executed, oldest first (R20). -/
  queue  : List Input
  deriving DecidableEq, Repr

/-- Why a step has no meaning. -/
inductive Fault where
  /-- Raised by R.BODY, W.BODY and W.STOP on a body index at or above `BODY_MAX` (20_memory.md R68,
  93_implementation_defined.md U1). Safe: the original would go on in some way, the model stops. -/
  | bodyIndex
  deriving DecidableEq, Repr

/-- Why the machine refuses to run what it was given. -/
inductive Refusal where
  /-- An instruction without a meaning, by its mnemonic; raised only by a refused arm of `exec`.
  Safe. -/
  | notModelled (mnemonic : String)
  /-- Raised by the fetch of a command word that is no operation (30_encoding.md R112,
  93_implementation_defined.md U3: "refuse at the decoder"). Safe. -/
  | notAnOperation (cmd : Byte)
  /-- Raised by PRELOAD of a body longer than `BODY_MAX`: "this operation is defined only for
  n <= BODY_MAX" (40_interface_ops.md R140, U1: "refuse"). Safe. -/
  | preloadTooLong
  /-- Raised by PRELOAD with side inputs that are not its operands by R140: not `HDR_BYTES` header
  bytes, or not as many body bytes as the header declares. Safe. -/
  | preloadMalformed
  deriving DecidableEq, Repr

/-- The cursor after `ResetReadCursor()` (40_interface_ops.md R136). -/
def ReadCursor.zero : ReadCursor :=
  { rstate := 0, rphase := .lead, rcnt := 0, rsync := false, rsum := 0, rblen := 0, rcks := 0 }

/-- The cursor after `ResetWriteCursor()` (40_interface_ops.md R137). -/
def WriteCursor.zero : WriteCursor :=
  { wstate := 0, wcnt := 0, wsync := false, wsum := 0, wblen := 0, wbyte := 0, wcks := 0,
    wline := false, wt0 := 0 }

/-- DESIGN CHOICE (unsafe), log entry 2: what stands on the side inputs before any operation. -/
def SideInput.zero : SideInput :=
  { now := 0, image := { header := List.replicate 128 0#8, body := [] } }

/-- The power-on state (R49, column "power-on"; 70_reset_and_hazards.md R270). -/
def State.reset : State :=
  { rd := ReadCursor.zero, wr := WriteCursor.zero, motor := false, sense := false, tcount := 0,
    header := [], body := [], events := [], rdData := none, port := SideInput.zero, queue := [] }

end Sys2Proof.Machine
end

