-- ==== Sys2Proof/Machine/Memory.lean ====
section
/-!
DEFINITION. The access primitive of the two buffers (20_memory.md R62): one byte read, one byte
written, and the whole-block accesses of PRELOAD and PERSIST built from it. The list keeps one
canonical form, so equal contents are equal data.
-/
namespace Sys2Proof.Machine

/-- What an index that is not listed reads as (10_state.md R45, R46). -/
def Memory.blank : Byte := 0#8

/-- `m[i]` (R62). -/
def Memory.read : Memory → Nat → Byte
  | [], _ => Memory.blank
  | (k, b) :: rest, i => if i = k then b else Memory.read rest i

/-- A cell put before the cells of a list, unless it says what an unlisted index says anyway. -/
def Memory.cons (i : Nat) (v : Byte) (m : Memory) : Memory :=
  if v = Memory.blank then m else (i, v) :: m

/-- `m[i] <- v` (R62), keeping the canonical form. -/
def Memory.write : Memory → Nat → Byte → Memory
  | [], i, v => Memory.cons i v []
  | (k, b) :: rest, i, v =>
    if i < k then Memory.cons i v ((k, b) :: rest)
    else if i = k then Memory.cons i v rest
    else (k, b) :: Memory.write rest i v

/-- `m[base + j] <- vs[j]` for every byte of a block, the first at `base`. -/
def Memory.writeBlock (m : Memory) (base : Nat) : List Byte → Memory
  | [] => m
  | v :: vs => Memory.writeBlock (Memory.write m base v) (base + 1) vs

/-- `m[0..n-1]`. -/
def Memory.bytes (m : Memory) (n : Nat) : List Byte :=
  (List.range n).map m.read

/-- Every index listed is at least `lo`, indices rise strictly, and no listed byte is blank. -/
def Memory.wfFrom : Nat → Memory → Bool
  | _, [] => true
  | lo, (k, b) :: rest => decide (lo ≤ k) && decide (b ≠ Memory.blank) && Memory.wfFrom (k + 1) rest

/-- The canonical form. -/
def Memory.wf (m : Memory) : Bool := Memory.wfFrom 0 m

/-- Every listed index is below the buffer's size. -/
def Memory.inside (m : Memory) (size : Nat) : Bool := m.all fun c => decide (c.1 < size)

end Sys2Proof.Machine
end

