-- ==== Sys2Proof/Machine/Pulses.lean ====
section
/-!
DEFINITION. The tape format of 30_encoding.md: pulse frames, byte frames, the preambles position by
position, the checksum of a section, and the two complete streams (R92 to R102).
-/
namespace Sys2Proof.Machine

/-- The levels of one pulse frame: "emit '1', then the data bit, then '0'" (R92). -/
def pulseFrame (s : Bit) : List Bit := [true, s, false]

/-- Bit `k` of a byte counted from its most significant bit, `k` below 8 (20_memory.md R64). -/
def byteBit (byte : Byte) (k : Nat) : Bit := byte.getLsbD (7 - k)

/-- The byte frame: one sync pulse, then the bits 7 to 0 (R94). -/
def byteFrame (byte : Byte) : List Bit := long :: (List.range 8).map (byteBit byte)

/-- Pulse `k` of a preamble of `gap` SHORT pulses, a tape mark of `btm` pulses and one LONG pulse
(R95, R102). Positions after the last are not used. -/
def preamblePulse (gap btm k : Nat) : Bit :=
  if k < gap then short
  else if k < gap + btm / 2 then long
  else if k < gap + btm then short
  else long

/-- `PRE(k)` (R95). -/
def prePulse (c : Config) (k : Nat) : Bit := preamblePulse c.rBgap c.btm k

/-- `WPRE(k)`: `PRE(k)` with `WBGAP_L` in place of `R_BGAP` (R102). -/
def wprePulse (c : Config) (k : Nat) : Bit := preamblePulse c.wbgapL c.btm k

/-- `BPRE(k)` (R98). -/
def bprePulse (c : Config) (k : Nat) : Bit :=
  if k = 0 then long
  else if k < 1 + c.rSgap then short
  else if k < 1 + c.rSgap + c.stm / 2 then long
  else if k < 1 + c.rSgap + c.stm then short
  else long

/-- The data bits of a byte that are 1. -/
def onesOfByte (byte : Byte) : Nat := ((List.range 8).filter (byteBit byte)).length

/-- The data bits of a section that are 1. -/
def onesOf (bytes : List Byte) : Nat := (bytes.map onesOfByte).sum

/-- The checksum of a section: the count of its data bits equal to 1, modulo 65536 (R97). -/
def checksumOf (bytes : List Byte) : Half := BitVec.ofNat 16 (onesOf bytes)

/-- The high byte of a checksum (R109). -/
def highByte (v : Half) : Byte := v.extractLsb' 8 8

/-- The low byte of a checksum (R109). -/
def lowByte (v : Half) : Byte := v.extractLsb' 0 8

/-- The byte frames of a data section (R96, R99). -/
def sectionFrames (bytes : List Byte) : List Bit := bytes.flatMap byteFrame

/-- The checksum section: high byte first (R97). -/
def checksumFrames (v : Half) : List Bit := byteFrame (highByte v) ++ byteFrame (lowByte v)

/-- The big preamble the reader emits (R95). -/
def bigPreamble (c : Config) : List Bit := (List.range c.rPreLen).map (prePulse c)

/-- The big preamble the writer expects (R102). -/
def writePreamble (c : Config) : List Bit := (List.range c.wPreLen).map (wprePulse c)

/-- The body preamble (R98). -/
def bodyPreamble (c : Config) : List Bit := (List.range c.rBpreLen).map (bprePulse c)

/-- The complete stream of one read (R101). -/
def readStream (c : Config) (header body : List Byte) : List Bit :=
  bigPreamble c ++ sectionFrames header ++ checksumFrames (checksumOf header) ++ bodyPreamble c
    ++ sectionFrames body ++ checksumFrames (checksumOf body) ++ [long]

/-- The line levels of one read, one per READ_BIT: three per pulse, but for the stop pulse, whose
trailing low is never delivered (R92, 41_read_fsm.md R179). -/
def readLevels (c : Config) (header body : List Byte) : List Bit :=
  ((readStream c header body).flatMap pulseFrame).dropLast

/-- A complete stream the writer accepts (R102); the pulses of the two skips are any symbols. -/
def writeStream (c : Config) (header body : List Byte) (skip4 skip10 : List Bit) : List Bit :=
  writePreamble c ++ sectionFrames header ++ checksumFrames (checksumOf header) ++ skip4
    ++ sectionFrames body ++ checksumFrames (checksumOf body) ++ skip10 ++ [long]

end Sys2Proof.Machine
end

