-- ==== Sys2Proof/Machine/Operands.lean ====
section
/-!
DEFINITION. Operand assembly (30_encoding.md R109): the declared length, the byte under
transmission, the shift registers, the classified pulse.
-/
namespace Sys2Proof.Machine

/-- A 16-bit value from its low and its high byte (20_memory.md R65). -/
def littleEndian (lo hi : Byte) : Half := lo.setWidth 16 ||| (hi.setWidth 16 <<< 8)

/-- The declared length in the header buffer: `header[18] | (header[19] << 8)` (R65). -/
def declaredLength (c : Config) (header : Memory) : Half :=
  littleEndian (header.read c.lenOff) (header.read (c.lenOff + 1))

/-- `(v << 1 | p)`, cut to the register's width (10_state.md R40, R41). -/
def shiftIn {n : Nat} (v : BitVec n) (p : Bit) : BitVec n :=
  (v <<< 1) ||| (BitVec.ofBool p).setWidth n

/-- `zext_32` of a pulse symbol (00_scope.md R11). -/
def zextBit (p : Bit) : Count := (BitVec.ofBool p).setWidth 32

/-- The checksum byte under transmission: the high byte for the first eight data bits
(41_read_fsm.md R175, R178). -/
def checksumByte (cks : Half) (cnt : Nat) : Byte := if cnt < 8 then highByte cks else lowByte cks

/-- `Classify(dt)` (40_interface_ops.md R133). -/
def classify (c : Config) (dt : Time) : Bit := if dt.toNat < c.wThreshUs then short else long

/-- The symbol of the pulse a falling edge ends: the clock value of this operation less that of the
rising edge, modulo 2^64, classified (40_interface_ops.md R132). Log entry 9. -/
def pulseInHand (c : Config) (s : State) : Bit := classify c (s.port.now - s.wr.wt0)

end Sys2Proof.Machine
end

