-- ==== Sys2Proof/Machine/Flags.lean ====
section
/-!
DEFINITION. The conditions the operations test: the gates, the in-progress tests, the line's edges,
the sync position of a byte frame, the end of a byte.
-/
namespace Sys2Proof.Machine

/-- A read is in progress (10_state.md R44). -/
def readInProgress (s : State) : Bool := decide (s.rd.rstate ≠ 0)

/-- A write is in progress (10_state.md R44). -/
def writeInProgress (s : State) : Bool := decide (s.wr.wstate ≠ 0)

/-- Item 2 of READ_BIT: a write in progress holds the reader off (40_interface_ops.md R131). -/
def readHeldOff (s : State) : Bool := s.sense && writeInProgress s

/-- The gate of WRITE_BIT (40_interface_ops.md R132). -/
def writeGate (s : State) : Bool := s.motor && s.sense

/-- WRITE_BIT with 1 is a rising edge where the line is low (R132). -/
def risingEdge (b : Bit) (s : State) : Bool := b && !s.wr.wline

/-- WRITE_BIT with 0 is a falling edge where the line is high (R132). -/
def fallingEdge (b : Bit) (s : State) : Bool := !b && s.wr.wline

/-- A byte boundary with the sync pulse still to come (41_read_fsm.md R171, 42_write_fsm.md R201). -/
def atSyncPulse (cnt : Count) (sync : Bit) : Bool := decide (cnt.toNat % 8 = 0) && !sync

/-- The counter stands at the end of a byte, its last data bit just handled (R171, R204). -/
def byteComplete (cnt : Count) : Bool := decide (cnt.toNat % 8 = 0)

/-- A running checksum after one data bit: the bits equal to 1 are counted, modulo 2^16
(10_state.md R26, R38). -/
def countOne (sum : Half) (b : Bit) : Half := if b then sum + 1 else sum

/-- The comparison at the sixteenth checksum bit fails (42_write_fsm.md R205, R208). -/
def checksumMismatch (c : Config) (cnt : Count) (received computed : Half) : Bool :=
  decide (cnt.toNat = c.cksBits) && decide (received ≠ computed)

end Sys2Proof.Machine
end

