-- ==== Sys2Proof/Machine/Image.lean ====
section
/-!
DEFINITION. The tape image: PRELOAD's constraints on it (40_interface_ops.md R140) and its file
format (30_encoding.md R106 to R108).
-/
namespace Sys2Proof.Machine

/-- The length a header block declares (20_memory.md R65). -/
def imageLength (c : Config) (header : List Byte) : Half :=
  littleEndian (header.getD c.lenOff 0#8) (header.getD (c.lenOff + 1) 0#8)

/-- The operands of PRELOAD agree among themselves (R140): `HDR_BYTES` header bytes, and as many body
bytes as the header declares. -/
def imageConsistent (c : Config) (img : Image) : Bool :=
  decide (img.header.length = c.hdrBytes) && decide (img.body.length = (imageLength c img.header).toNat)

/-- The body fits the body buffer (R140: `0 <= n <= BODY_MAX`). -/
def imageFits (c : Config) (img : Image) : Bool := decide (img.body.length ≤ c.bodyMax)

/-- The image as a file: the header block, then the body (R106). -/
def imageToFile (img : Image) : List Byte := img.header ++ img.body

/-- The success path of the catalog walker's two reads: a whole header block, then a body of the
length it declares. Nothing where either read is short (R140). -/
def imageOfFile (c : Config) (file : List Byte) : Option Image :=
  let header := file.take c.hdrBytes
  let n := (imageLength c header).toNat
  let body := (file.drop c.hdrBytes).take n
  if header.length = c.hdrBytes ∧ body.length = n then some { header := header, body := body } else none

/-- The file-type tags DOC0 names (R108). -/
inductive FileType where
  | machineCode
  | language
  | data
  | source
  | memoryDump
  /-- A model-specific extension (93_implementation_defined.md U9). -/
  | other (tag : Byte)
  deriving DecidableEq, Repr

/-- The file type of an image: header byte 0 (R107, R108). The FSMs never read it. -/
def imageType (img : Image) : FileType :=
  match (img.header.getD 0 0#8).toNat with
  | 0x01 => .machineCode
  | 0x02 => .language
  | 0x03 => .data
  | 0x04 => .source
  | 0x20 => .memoryDump
  | _ => .other (img.header.getD 0 0#8)

/-- The filename of an image: the bytes from `NAME_OFF`, ended by the sentinel or cut at `NAME_MAX`
(R107). The FSMs never read it. -/
def imageName (c : Config) (img : Image) : List Byte :=
  ((img.header.drop c.nameOff).take c.nameMax).takeWhile (· ≠ c.nameEnd)

end Sys2Proof.Machine
end

