-- ==== Sys2Proof/Machine/Ops.lean ====
section
/-!
DEFINITION. The named operations over the state: its updates, the reset procedures (40_interface_ops.md
R136 to R138), the log port and PERSIST, the violation of 60_exceptions.md R250, the turn of a state
handler, and fetching the next operation.
-/
namespace Sys2Proof.Machine

/-- What an operation answers. -/
abbrev Result := Host.Outcome State Fault Refusal

/-- Write the read cursor. -/
def State.setRd (s : State) (rd : ReadCursor) : State := { s with rd := rd }

/-- Write the write cursor. -/
def State.setWr (s : State) (wr : WriteCursor) : State := { s with wr := wr }

/-- Write both gates. -/
def State.setGates (s : State) (motor sense : Bit) : State := { s with motor := motor, sense := sense }

/-- Write the tape counter. -/
def State.setTcount (s : State) (n : Half) : State := { s with tcount := n }

/-- Write the header buffer. -/
def State.setHeader (s : State) (m : Memory) : State := { s with header := m }

/-- Write the body buffer. -/
def State.setBody (s : State) (m : Memory) : State := { s with body := m }

/-- Append one event to the output history (10_state.md R34). -/
def State.emit (s : State) (e : Event) : State := { s with events := s.events ++ [e] }

/-- `return v`: the operation ends with `rd_data = v` (00_scope.md R14). -/
def State.answer (s : State) (v : Bit) : State := { s with rdData := some v }

/-- Latch the side inputs of the operation to execute, leave the rest of the queue, and clear
`rd_data`, which only READ_BIT drives (92_eei_decisions.md D2). -/
def State.accept (s : State) (side : SideInput) (rest : List Input) : State :=
  { s with port := side, queue := rest, rdData := none }

/-- `log(code, a, b)` (60_exceptions.md R241). -/
def State.log (s : State) (code : LogCode) (a b : Count) : State := s.emit (.log code a b)

/-- `persist(header, body, wblen)`: the request carries a snapshot of the whole header and of
`body[0..wblen-1]` (40_interface_ops.md R142). -/
def State.persist (s : State) (c : Config) : State :=
  s.emit (.persist (s.header.bytes c.hdrBytes) (s.body.bytes s.wr.wblen.toNat) s.wr.wblen)

/-- `ResetReadCursor()` (R136). -/
def State.resetReadCursor (s : State) : State := s.setRd ReadCursor.zero

/-- `ResetWriteCursor()` (R137). -/
def State.resetWriteCursor (s : State) : State := s.setWr WriteCursor.zero

/-- `ResetAll()` (R138). -/
def State.resetAll (s : State) : State :=
  ((s.resetReadCursor).resetWriteCursor).setGates false false

/-- A violation the read FSM gives up on (60_exceptions.md R250): one event, then its cursor zeroed,
nothing else. -/
def State.violateRead (s : State) (code : LogCode) (a b : Count) : State :=
  (s.log code a b).resetReadCursor

/-- A violation the write FSM gives up on (R250). -/
def State.violateWrite (s : State) (code : LogCode) (a b : Count) : State :=
  (s.log code a b).resetWriteCursor

/-- The value of an event code (R242). -/
def LogCode.value : LogCode → BitVec 4
  | .rUnknownState => 1
  | .wUnknownState => 2
  | .wPreambleMismatch => 3
  | .wHdrCksMismatch => 4
  | .wBodyCksMismatch => 5
  | .wStopMismatch => 6

/-- The code of a phase (10_state.md R23). -/
def Phase.value : Phase → BitVec 2
  | .lead => 0
  | .data => 1
  | .trail => 2

/-- What one state handler does: it ends the operation, re-enters the dispatcher (`goto dispatch`,
00_scope.md R14), or has no meaning. -/
inductive Turn where
  | done (s : State)
  | again (s : State)
  | fault (r : Fault)
  deriving DecidableEq, Repr

/-- A handler's turn followed by the rest of the dispatch. -/
def Turn.andThen (t : Turn) (rest : State → Result) : Result :=
  match t with
  | .done s => .next s
  | .again s => rest s
  | .fault r => .fault r

/-- What the step finds to execute. -/
inductive Fetched where
  /-- No operation is pending. -/
  | idle
  /-- The pending word is no operation. -/
  | invalid (cmd : Byte)
  /-- An operation, and the state it executes in. -/
  | operation (i : Instr) (s : State)
  deriving DecidableEq, Repr

/-- Take the oldest pending operation and decode its command word (30_encoding.md R112). -/
def fetch (s : State) : Fetched :=
  match s.queue with
  | [] => .idle
  | inp :: rest =>
    match decode .command [inp.cmd] with
    | .ok (i, _) => .operation i (s.accept inp.side rest)
    | .error _ => .invalid inp.cmd

/-- The host's side of the queue: issue one more operation (10_state.md R20). -/
def State.issue (s : State) (inp : Input) : State := { s with queue := s.queue ++ [inp] }

end Sys2Proof.Machine
end

