-- ==== Sys2Proof/Machine/ReadFsm.lean ====
section
/-!
DEFINITION. The read FSM (41_read_fsm.md): the byte-frame helper, one turn per state handler, the
dispatcher, and the meaning of each read state code.  A turn that ends in `goto dispatch` has set
`rstate` to a fixed later code, so the dispatcher is entered again at that code's handler; the
handlers stand in the order of R170's termination argument, the last first.
-/
namespace Sys2Proof.Machine

/-- `RByteFrame(byte, counted, isbody)` (R171). -/
def rByteFrame (byte : Byte) (counted isbody : Bool) (s : State) : State :=
  if atSyncPulse s.rd.rcnt s.rd.rsync then
    (s.setRd { s.rd with rsync := true }).answer long
  else
    let b := byteBit byte (s.rd.rcnt.toNat % 8)
    let cnt := s.rd.rcnt + 1
    let rd := { s.rd with
      rsum := if counted then countOne s.rd.rsum b else s.rd.rsum
      rcnt := cnt
      rsync := if byteComplete cnt then false else s.rd.rsync }
    ((s.setRd rd).setTcount (if byteComplete cnt && isbody then s.tcount + 1 else s.tcount)).answer b

/-- R.IDLE (R172): clear the scratch and go on to the preamble. -/
def rIdle (s : State) : State :=
  (s.setRd { s.rd with rcnt := 0, rsync := false, rsum := 0, rblen := 0, rcks := 0, rstate := 1 }).setTcount 0

/-- R.PREAMBLE (R173). -/
def rPreamble (c : Config) (s : State) : Turn :=
  if s.rd.rcnt.toNat < c.rPreLen then
    .done ((s.setRd { s.rd with rcnt := s.rd.rcnt + 1 }).answer (prePulse c s.rd.rcnt.toNat))
  else
    .again (s.setRd { s.rd with rstate := 2, rcnt := 0, rsync := false })

/-- R.HEADER (R174). -/
def rHeader (c : Config) (s : State) : Turn :=
  if s.rd.rcnt.toNat < c.hdrBits then
    .done (rByteFrame (s.header.read (s.rd.rcnt.toNat / 8)) true false s)
  else
    .again (s.setRd { s.rd with rstate := 3, rcnt := 0, rsync := false, rcks := s.rd.rsum })

/-- R.HDRCKS (R175). -/
def rHdrCks (c : Config) (s : State) : Turn :=
  if s.rd.rcnt.toNat < c.cksBits then
    .done (rByteFrame (checksumByte s.rd.rcks s.rd.rcnt.toNat) false false s)
  else
    .again (s.setRd { s.rd with
      rstate := 7, rcnt := 0, rsync := false, rsum := 0, rblen := declaredLength c s.header })

/-- R.BODYPRE (R176). -/
def rBodyPre (c : Config) (s : State) : Turn :=
  if s.rd.rcnt.toNat < c.rBpreLen then
    .done ((s.setRd { s.rd with rcnt := s.rd.rcnt + 1 }).answer (bprePulse c s.rd.rcnt.toNat))
  else
    .again (s.setRd { s.rd with rstate := 8, rcnt := 0, rsync := false })

/-- R.BODY (R177). -/
def rBody (c : Config) (s : State) : Turn :=
  if s.rd.rcnt.toNat < 8 * s.rd.rblen.toNat then
    if c.bodyMax ≤ s.rd.rcnt.toNat / 8 then .fault .bodyIndex
    else .done (rByteFrame (s.body.read (s.rd.rcnt.toNat / 8)) true true s)
  else
    .again (s.setRd { s.rd with rstate := 9, rcnt := 0, rsync := false, rcks := s.rd.rsum })

/-- R.BODYCKS (R178). -/
def rBodyCks (c : Config) (s : State) : Turn :=
  if s.rd.rcnt.toNat < c.cksBits then
    .done (rByteFrame (checksumByte s.rd.rcks s.rd.rcnt.toNat) false false s)
  else
    .again (s.setRd { s.rd with rstate := 13, rcnt := 0, rsync := false })

/-- R.STOP (R179): reset everything but the buffers and `tcount`, and return LONG. -/
def rStop (s : State) : State := s.resetAll.answer long

/-- R.UNKNOWN (R180): log the code, reset this cursor, return LONG. -/
def rUnknown (s : State) : State :=
  (s.violateRead .rUnknownState (s.rd.rstate.setWidth 32) 0).answer long

/-- The dispatcher entered at R.STOP, which always returns. -/
def readFromStop (s : State) : Result := .next (rStop s)

/-- The dispatcher entered at R.BODYCKS. -/
def readFromBodyCks (c : Config) (s : State) : Result := (rBodyCks c s).andThen readFromStop

/-- The dispatcher entered at R.BODY. -/
def readFromBody (c : Config) (s : State) : Result := (rBody c s).andThen (readFromBodyCks c)

/-- The dispatcher entered at R.BODYPRE. -/
def readFromBodyPre (c : Config) (s : State) : Result := (rBodyPre c s).andThen (readFromBody c)

/-- The dispatcher entered at R.HDRCKS. -/
def readFromHdrCks (c : Config) (s : State) : Result := (rHdrCks c s).andThen (readFromBodyPre c)

/-- The dispatcher entered at R.HEADER. -/
def readFromHeader (c : Config) (s : State) : Result := (rHeader c s).andThen (readFromHdrCks c)

/-- The dispatcher entered at R.PREAMBLE. -/
def readFromPreamble (c : Config) (s : State) : Result := (rPreamble c s).andThen (readFromHeader c)

/-- The dispatcher entered at R.IDLE, which always goes on to R.PREAMBLE. -/
def readFromIdle (c : Config) (s : State) : Result := readFromPreamble c (rIdle s)

/-- The dispatcher entered at a code that is no read state. -/
def readFromUnknown (s : State) : Result := .next (rUnknown s)

/-- `ReadAdvance()` (R170). -/
def readAdvance (c : Config) (s : State) : Result :=
  match s.rd.rstate.toNat with
  | 0 => readFromIdle c s
  | 1 => readFromPreamble c s
  | 2 => readFromHeader c s
  | 3 => readFromHdrCks c s
  | 7 => readFromBodyPre c s
  | 8 => readFromBody c s
  | 9 => readFromBodyCks c s
  | 13 => readFromStop s
  | _ => readFromUnknown s

/-- R.IDLE (R172): the advancing call that finds `rstate` = 0. -/
def execRIdle (s : State) : Result := readFromIdle Config.machine s

/-- R.PREAMBLE (R173): the advancing call that finds `rstate` = 1. -/
def execRPreamble (s : State) : Result := readFromPreamble Config.machine s

/-- R.HEADER (R174): the advancing call that finds `rstate` = 2. -/
def execRHeader (s : State) : Result := readFromHeader Config.machine s

/-- R.HDRCKS (R175): the advancing call that finds `rstate` = 3. -/
def execRHdrCks (s : State) : Result := readFromHdrCks Config.machine s

/-- R.BODYPRE (R176): the advancing call that finds `rstate` = 7. -/
def execRBodyPre (s : State) : Result := readFromBodyPre Config.machine s

/-- R.BODY (R177): the advancing call that finds `rstate` = 8. -/
def execRBody (s : State) : Result := readFromBody Config.machine s

/-- R.BODYCKS (R178): the advancing call that finds `rstate` = 9. -/
def execRBodyCks (s : State) : Result := readFromBodyCks Config.machine s

/-- R.STOP (R179): the advancing call that finds `rstate` = 13. -/
def execRStop (s : State) : Result := readFromStop s

/-- R.UNKNOWN (R180), the reserved code 4. -/
def execRUnknown4 (s : State) : Result := readFromUnknown s

/-- R.UNKNOWN (R180), the reserved code 5. -/
def execRUnknown5 (s : State) : Result := readFromUnknown s

/-- R.UNKNOWN (R180), the reserved code 6. -/
def execRUnknown6 (s : State) : Result := readFromUnknown s

/-- R.UNKNOWN (R180), the reserved code 10. -/
def execRUnknown10 (s : State) : Result := readFromUnknown s

/-- R.UNKNOWN (R180), the reserved code 11. -/
def execRUnknown11 (s : State) : Result := readFromUnknown s

/-- R.UNKNOWN (R180), the reserved code 12. -/
def execRUnknown12 (s : State) : Result := readFromUnknown s

/-- R.UNKNOWN (R180), the unused code 14. -/
def execRUnknown14 (s : State) : Result := readFromUnknown s

/-- R.UNKNOWN (R180), the unused code 15. -/
def execRUnknown15 (s : State) : Result := readFromUnknown s

end Sys2Proof.Machine
end

