-- ==== Sys2Proof/Machine/WriteFsm.lean ====
section
/-!
DEFINITION. The write FSM (42_write_fsm.md): the sync helper, one turn per state handler on one
classified pulse `p`, the dispatcher, and the meaning of each write state code.  As on the read side
a turn that ends in `goto dispatch` has set `wstate` to a fixed later code, and the handlers stand
with the last first (R200).
-/
namespace Sys2Proof.Machine

/-- `WSkipSync()` with its effect (R201): the state once the sync pulse is consumed, whatever its
symbol; nothing where the pulse is a data pulse. -/
def wSkipSync (s : State) : Option State :=
  if atSyncPulse s.wr.wcnt s.wr.wsync then some (s.setWr { s.wr with wsync := true }) else none

/-- A data pulse of Header or Body before its byte is complete (R204, R207): the bit is shifted in,
counted, and the offset advanced. -/
def wDataBit (p : Bit) (w : WriteCursor) : WriteCursor :=
  { w with wbyte := shiftIn w.wbyte p, wsum := countOne w.wsum p, wcnt := w.wcnt + 1 }

/-- A pulse of a checksum section (R205, R208), with the event a mismatch at the sixteenth bit logs;
the write goes on. -/
def wChecksumPulse (c : Config) (code : LogCode) (p : Bit) (s : State) : State :=
  match wSkipSync s with
  | some t => t
  | none =>
    let cks := shiftIn s.wr.wcks p
    let cnt := s.wr.wcnt + 1
    let t := s.setWr { s.wr with
      wcks := cks, wcnt := cnt, wsync := if byteComplete cnt then false else s.wr.wsync }
    if checksumMismatch c cnt cks s.wr.wsum then
      t.log code (s.wr.wsum.setWidth 32) (cks.setWidth 32)
    else t

/-- W.IDLE (R202): clear the scratch, keep the pulse, go on to the preamble. -/
def wIdle (s : State) : State :=
  (s.setWr { s.wr with
    wcnt := 0, wsync := false, wsum := 0, wblen := 0, wbyte := 0, wcks := 0, wstate := 1 }).setTcount 0

/-- W.PREAMBLE (R203). -/
def wPreamble (c : Config) (p : Bit) (s : State) : Turn :=
  if s.wr.wcnt.toNat < c.wPreLen then
    if p ≠ wprePulse c s.wr.wcnt.toNat then
      .done (s.violateWrite .wPreambleMismatch s.wr.wcnt (zextBit p))
    else
      .done (s.setWr { s.wr with wcnt := s.wr.wcnt + 1 })
  else
    .again (s.setWr { s.wr with wstate := 2, wcnt := 0, wsync := false, wbyte := 0 })

/-- W.HEADER (R204). -/
def wHeader (c : Config) (p : Bit) (s : State) : Turn :=
  if s.wr.wcnt.toNat < c.hdrBits then
    match wSkipSync s with
    | some t => .done t
    | none =>
      let w := wDataBit p s.wr
      if byteComplete w.wcnt then
        .done ((s.setWr { w with wsync := false }).setHeader
          (s.header.write (w.wcnt.toNat / 8 - 1) w.wbyte))
      else .done (s.setWr w)
  else
    .again (s.setWr { s.wr with wstate := 3, wcnt := 0, wsync := false, wcks := 0 })

/-- W.HDRCKS (R205). -/
def wHdrCks (c : Config) (p : Bit) (s : State) : Turn :=
  if s.wr.wcnt.toNat < c.cksBits then
    .done (wChecksumPulse c .wHdrCksMismatch p s)
  else
    .again (s.setWr { s.wr with
      wstate := 4, wcnt := 0, wsync := false, wsum := 0, wblen := declaredLength c s.header })

/-- W.SKIP4 (R206): the symbol is ignored. -/
def wSkip4 (c : Config) (s : State) : Turn :=
  if s.wr.wcnt.toNat < c.wSkip4 then
    .done (s.setWr { s.wr with wcnt := s.wr.wcnt + 1 })
  else
    .again (s.setWr { s.wr with wstate := 8, wcnt := 0, wsync := false, wbyte := 0 })

/-- W.BODY (R207). -/
def wBody (c : Config) (p : Bit) (s : State) : Turn :=
  if s.wr.wcnt.toNat < 8 * s.wr.wblen.toNat then
    match wSkipSync s with
    | some t => .done t
    | none =>
      let w := wDataBit p s.wr
      if byteComplete w.wcnt then
        let i := w.wcnt.toNat / 8 - 1
        if c.bodyMax ≤ i then .fault .bodyIndex
        else
          .done (((s.setWr { w with wsync := false }).setBody (s.body.write i w.wbyte)).setTcount
            (s.tcount + 1))
      else .done (s.setWr w)
  else
    .again (s.setWr { s.wr with wstate := 9, wcnt := 0, wsync := false, wcks := 0 })

/-- W.BODYCKS (R208). -/
def wBodyCks (c : Config) (p : Bit) (s : State) : Turn :=
  if s.wr.wcnt.toNat < c.cksBits then
    .done (wChecksumPulse c .wBodyCksMismatch p s)
  else
    .again (s.setWr { s.wr with wstate := 10, wcnt := 0, wsync := false })

/-- W.SKIP10 (R209): the symbol is ignored. -/
def wSkip10 (c : Config) (s : State) : Turn :=
  if s.wr.wcnt.toNat < c.wSkip10 s.wr.wblen then
    .done (s.setWr { s.wr with wcnt := s.wr.wcnt + 1 })
  else
    .again (s.setWr { s.wr with wstate := 13, wcnt := 0 })

/-- W.STOP (R210). The snapshot reads `body[0..wblen-1]`; where that leaves the buffer the access has
no meaning (20_memory.md R62, R68). DEDUCED (safe), log entry 12. -/
def wStop (c : Config) (p : Bit) (s : State) : Turn :=
  if p = long then
    if c.bodyMax < s.wr.wblen.toNat then .fault .bodyIndex
    else .done (s.persist c).resetAll
  else
    .done (s.violateWrite .wStopMismatch 0 (zextBit p))

/-- W.UNKNOWN (R211). -/
def wUnknown (s : State) : State := s.violateWrite .wUnknownState (s.wr.wstate.setWidth 32) 0

/-- The dispatcher entered at W.STOP, which never re-enters it: its last argument is never used. -/
def writeFromStop (c : Config) (p : Bit) (s : State) : Result := (wStop c p s).andThen .next

/-- The dispatcher entered at W.SKIP10. -/
def writeFromSkip10 (c : Config) (p : Bit) (s : State) : Result :=
  (wSkip10 c s).andThen (writeFromStop c p)

/-- The dispatcher entered at W.BODYCKS. -/
def writeFromBodyCks (c : Config) (p : Bit) (s : State) : Result :=
  (wBodyCks c p s).andThen (writeFromSkip10 c p)

/-- The dispatcher entered at W.BODY. -/
def writeFromBody (c : Config) (p : Bit) (s : State) : Result :=
  (wBody c p s).andThen (writeFromBodyCks c p)

/-- The dispatcher entered at W.SKIP4. -/
def writeFromSkip4 (c : Config) (p : Bit) (s : State) : Result :=
  (wSkip4 c s).andThen (writeFromBody c p)

/-- The dispatcher entered at W.HDRCKS. -/
def writeFromHdrCks (c : Config) (p : Bit) (s : State) : Result :=
  (wHdrCks c p s).andThen (writeFromSkip4 c p)

/-- The dispatcher entered at W.HEADER. -/
def writeFromHeader (c : Config) (p : Bit) (s : State) : Result :=
  (wHeader c p s).andThen (writeFromHdrCks c p)

/-- The dispatcher entered at W.PREAMBLE. -/
def writeFromPreamble (c : Config) (p : Bit) (s : State) : Result :=
  (wPreamble c p s).andThen (writeFromHeader c p)

/-- The dispatcher entered at W.IDLE, which always goes on to W.PREAMBLE. -/
def writeFromIdle (c : Config) (p : Bit) (s : State) : Result := writeFromPreamble c p (wIdle s)

/-- The dispatcher entered at a code that is no write state: the pulse is consumed. -/
def writeFromUnknown (s : State) : Result := .next (wUnknown s)

/-- `WritePulse(p)` (R200). -/
def writePulse (c : Config) (p : Bit) (s : State) : Result :=
  match s.wr.wstate.toNat with
  | 0 => writeFromIdle c p s
  | 1 => writeFromPreamble c p s
  | 2 => writeFromHeader c p s
  | 3 => writeFromHdrCks c p s
  | 4 => writeFromSkip4 c p s
  | 8 => writeFromBody c p s
  | 9 => writeFromBodyCks c p s
  | 10 => writeFromSkip10 c p s
  | 13 => writeFromStop c p s
  | _ => writeFromUnknown s

/-- W.IDLE (R202): the accepted falling edge that finds `wstate` = 0. -/
def execWIdle (s : State) : Result := writeFromIdle Config.machine (pulseInHand Config.machine s) s

/-- W.PREAMBLE (R203): the accepted falling edge that finds `wstate` = 1. -/
def execWPreamble (s : State) : Result :=
  writeFromPreamble Config.machine (pulseInHand Config.machine s) s

/-- W.HEADER (R204): the accepted falling edge that finds `wstate` = 2. -/
def execWHeader (s : State) : Result := writeFromHeader Config.machine (pulseInHand Config.machine s) s

/-- W.HDRCKS (R205): the accepted falling edge that finds `wstate` = 3. -/
def execWHdrCks (s : State) : Result := writeFromHdrCks Config.machine (pulseInHand Config.machine s) s

/-- W.SKIP4 (R206): the accepted falling edge that finds `wstate` = 4. -/
def execWSkip4 (s : State) : Result := writeFromSkip4 Config.machine (pulseInHand Config.machine s) s

/-- W.BODY (R207): the accepted falling edge that finds `wstate` = 8. -/
def execWBody (s : State) : Result := writeFromBody Config.machine (pulseInHand Config.machine s) s

/-- W.BODYCKS (R208): the accepted falling edge that finds `wstate` = 9. -/
def execWBodyCks (s : State) : Result :=
  writeFromBodyCks Config.machine (pulseInHand Config.machine s) s

/-- W.SKIP10 (R209): the accepted falling edge that finds `wstate` = 10. -/
def execWSkip10 (s : State) : Result := writeFromSkip10 Config.machine (pulseInHand Config.machine s) s

/-- W.STOP (R210): the accepted falling edge that finds `wstate` = 13. -/
def execWStop (s : State) : Result := writeFromStop Config.machine (pulseInHand Config.machine s) s

/-- W.UNKNOWN (R211), the code 5. -/
def execWUnknown5 (s : State) : Result := writeFromUnknown s

/-- W.UNKNOWN (R211), the code 6. -/
def execWUnknown6 (s : State) : Result := writeFromUnknown s

/-- W.UNKNOWN (R211), the code 7. -/
def execWUnknown7 (s : State) : Result := writeFromUnknown s

/-- W.UNKNOWN (R211), the code 11. -/
def execWUnknown11 (s : State) : Result := writeFromUnknown s

/-- W.UNKNOWN (R211), the code 12. -/
def execWUnknown12 (s : State) : Result := writeFromUnknown s

/-- W.UNKNOWN (R211), the code 14. -/
def execWUnknown14 (s : State) : Result := writeFromUnknown s

/-- W.UNKNOWN (R211), the code 15. -/
def execWUnknown15 (s : State) : Result := writeFromUnknown s

end Sys2Proof.Machine
end

