-- ==== Sys2Proof/Machine/Interface.lean ====
section
/-!
DEFINITION. The seven operations at the block's boundary (40_interface_ops.md R130).
-/
namespace Sys2Proof.Machine

/-- READ_BIT (R131), items 1 to 3 in their order. In the advancing call `rphase` is written before
the dispatcher runs. -/
def readBit (c : Config) (s : State) : Result :=
  if s.motor = false then
    .next ((if readInProgress s then s.setRd { s.rd with rphase := .lead } else s).answer long)
  else if readHeldOff s then .next (s.answer long)
  else match s.rd.rphase with
    | .lead => .next ((s.setRd { s.rd with rphase := .data }).answer true)
    | .trail => .next ((s.setRd { s.rd with rphase := .lead }).answer false)
    | .data => readAdvance c (s.setRd { s.rd with rphase := .trail })

/-- WRITE_BIT b (R132): nothing outside the gate, nothing without an edge. -/
def writeBit (c : Config) (b : Bit) (s : State) : Result :=
  if writeGate s = false then .next s
  else if risingEdge b s then .next (s.setWr { s.wr with wline := true, wt0 := s.port.now })
  else if fallingEdge b s then
    writePulse c (pulseInHand c s) (s.setWr { s.wr with wline := false })
  else .next s

/-- PRELOAD (R140): the header block and the first n body bytes are replaced, nothing else. -/
def preload (c : Config) (s : State) : Result :=
  let img := s.port.image
  if imageConsistent c img = false then .refused .preloadMalformed
  else if imageFits c img = false then .refused .preloadTooLong
  else .next ((s.setHeader (s.header.writeBlock 0 img.header)).setBody (s.body.writeBlock 0 img.body))

/-- READ_BIT (R131). -/
def execReadBit (s : State) : Result := readBit Config.machine s

/-- WRITE_BIT b (R132). -/
def execWriteBit (b : Bit) (s : State) : Result := writeBit Config.machine b s

/-- RESET (R134). -/
def execReset (s : State) : Result := .next s.resetAll

/-- PRELOAD (R140). -/
def execPreload (s : State) : Result := preload Config.machine s

/-- SET_MOTOR b (R139). -/
def execSetMotor (b : Bit) (s : State) : Result := .next (s.setGates b s.sense)

/-- SET_SENSE b (R141). -/
def execSetSense (b : Bit) (s : State) : Result := .next (s.setGates s.motor b)

/-- SENSE_TOGGLE (R143): both gates flip. -/
def execSenseToggle (s : State) : Result := .next (s.setGates (!s.motor) (!s.sense))

end Sys2Proof.Machine
end

