-- ==== Sys2Proof/Machine/Dispatch.lean ====
section
/-!
DEFINITION. The dispatch: one arm per constructor of Instr, each one call of its meaning.
-/
namespace Sys2Proof.Machine

def exec (i : Instr) (s : State) : Host.Outcome State Fault Refusal :=
  match i with
  -- commands (40_interface_ops.md)
  | .readBit => Sys2Proof.Machine.execReadBit s
  | .writeBit b => Sys2Proof.Machine.execWriteBit b s
  | .reset => Sys2Proof.Machine.execReset s
  | .preload => Sys2Proof.Machine.execPreload s
  | .setMotor b => Sys2Proof.Machine.execSetMotor b s
  | .setSense b => Sys2Proof.Machine.execSetSense b s
  | .senseToggle => Sys2Proof.Machine.execSenseToggle s
  -- read state handlers (41_read_fsm.md)
  | .rIdle => Sys2Proof.Machine.execRIdle s
  | .rPreamble => Sys2Proof.Machine.execRPreamble s
  | .rHeader => Sys2Proof.Machine.execRHeader s
  | .rHdrCks => Sys2Proof.Machine.execRHdrCks s
  | .rUnknown4 => Sys2Proof.Machine.execRUnknown4 s
  | .rUnknown5 => Sys2Proof.Machine.execRUnknown5 s
  | .rUnknown6 => Sys2Proof.Machine.execRUnknown6 s
  | .rBodyPre => Sys2Proof.Machine.execRBodyPre s
  | .rBody => Sys2Proof.Machine.execRBody s
  | .rBodyCks => Sys2Proof.Machine.execRBodyCks s
  | .rUnknown10 => Sys2Proof.Machine.execRUnknown10 s
  | .rUnknown11 => Sys2Proof.Machine.execRUnknown11 s
  | .rUnknown12 => Sys2Proof.Machine.execRUnknown12 s
  | .rStop => Sys2Proof.Machine.execRStop s
  | .rUnknown14 => Sys2Proof.Machine.execRUnknown14 s
  | .rUnknown15 => Sys2Proof.Machine.execRUnknown15 s
  -- write state handlers (42_write_fsm.md)
  | .wIdle => Sys2Proof.Machine.execWIdle s
  | .wPreamble => Sys2Proof.Machine.execWPreamble s
  | .wHeader => Sys2Proof.Machine.execWHeader s
  | .wHdrCks => Sys2Proof.Machine.execWHdrCks s
  | .wSkip4 => Sys2Proof.Machine.execWSkip4 s
  | .wUnknown5 => Sys2Proof.Machine.execWUnknown5 s
  | .wUnknown6 => Sys2Proof.Machine.execWUnknown6 s
  | .wUnknown7 => Sys2Proof.Machine.execWUnknown7 s
  | .wBody => Sys2Proof.Machine.execWBody s
  | .wBodyCks => Sys2Proof.Machine.execWBodyCks s
  | .wSkip10 => Sys2Proof.Machine.execWSkip10 s
  | .wUnknown11 => Sys2Proof.Machine.execWUnknown11 s
  | .wUnknown12 => Sys2Proof.Machine.execWUnknown12 s
  | .wStop => Sys2Proof.Machine.execWStop s
  | .wUnknown14 => Sys2Proof.Machine.execWUnknown14 s
  | .wUnknown15 => Sys2Proof.Machine.execWUnknown15 s

end Sys2Proof.Machine
end

