-- ==== Sys2Proof/Machine/Step.lean ====
section
/-!
DEFINITION. One step of the machine: the oldest pending operation, whole and atomic (10_state.md R20,
20_memory.md R69).
-/
namespace Sys2Proof.Machine

/-- A word placed where the step finds its next operation: pushed on the queue, with the side inputs
the port already shows. -/
def State.pushCommand (s : State) (cmd : Byte) : State :=
  { s with queue := { cmd := cmd, side := s.port } :: s.queue }

/-- The next step is the advancing call that finds `rstate` = `code` (40_interface_ops.md R131):
READ_BIT pending, the motor on, the phase at the data level, no write holding the reader off. -/
def State.placeReadCode (s : State) (code : Code) : State :=
  (((s.setRd { s.rd with rstate := code, rphase := .data }).setGates true
    (s.sense && !writeInProgress s))).pushCommand 0x10#8

/-- `s` with the instruction of a table word placed where `step` takes its next one. A command word
is the next pending operation; a state code stands in `rstate` of an advancing call. Log entries 3
and 7. -/
def State.withFetchWord (s : State) (_nbits w : Nat) : State :=
  match decodeCommand (BitVec.ofNat 8 w) with
  | some _ => s.pushCommand (BitVec.ofNat 8 w)
  | none =>
    match stateCode (BitVec.ofNat 8 w) with
    | some code => s.placeReadCode code
    | none => s.pushCommand (BitVec.ofNat 8 w)

/-- One step: with nothing pending the block does nothing (70_reset_and_hazards.md R270); a word that
is no operation is refused, the state unchanged (30_encoding.md R112). -/
def step (s : State) : Host.Outcome State Fault Refusal :=
  match fetch s with
  | .idle => .next s
  | .invalid cmd => .refused (.notAnOperation cmd)
  | .operation i t => exec i t

end Sys2Proof.Machine
end

