-- ==== Sys2Proof/Machine/Play.lean ====
section
/-!
DEFINITION. Sequences of operations: the environment's operations as queue entries, the
pseudo-operations of 30_encoding.md R113, and runs of READ_BIT calls and of written pulses, in which
claims about whole tape operations are said.
-/
namespace Sys2Proof.Machine

/-- An operation that uses no side input: its word, at clock value `t`. -/
def Input.plain (cmd : Byte) (t : Time) : Input :=
  { cmd := cmd, side := { SideInput.zero with now := t } }

/-- `RD`. -/
def opReadBit : Input := Input.plain 0x10#8 0

/-- `WR b @t`. -/
def opWriteBit (b : Bit) (t : Time) : Input := Input.plain (0x20#8 ||| bitByte b) t

/-- `RESET`. -/
def opReset : Input := Input.plain 0x30#8 0

/-- `PRELOAD(img)`. -/
def opPreload (img : Image) : Input := { cmd := 0x40#8, side := { now := 0, image := img } }

/-- `MOTOR b`. -/
def opSetMotor (b : Bit) : Input := Input.plain (0x50#8 ||| bitByte b) 0

/-- `SENSE b`. -/
def opSetSense (b : Bit) : Input := Input.plain (0x60#8 ||| bitByte b) 0

/-- `TOGGLE`. -/
def opSenseToggle : Input := Input.plain 0x70#8 0

/-- `RDPULSE`: one pulse frame. -/
def opsReadPulse : List Input := List.replicate 3 opReadBit

/-- `PULSE p @t`: the shortest interval that is LONG, or the longest that is SHORT. -/
def opsPulse (c : Config) (p : Bit) (t : Time) : List Input :=
  [opWriteBit true t,
   opWriteBit false (t + BitVec.ofNat 64 (if p then c.wThreshUs else c.wThreshUs - 1))]

/-- `PLAY` with its number of READ_BIT calls written out. -/
def opsPlay (calls : Nat) : List Input :=
  opSetMotor true :: opSetSense true :: List.replicate calls opReadBit

/-- `n` READ_BIT calls: the levels they return, in order, and the state they leave. -/
def readCalls (c : Config) : Nat → State → Option (List Bit × State)
  | 0, s => some ([], s)
  | n + 1, s =>
    match readBit c s with
    | .next t =>
      match t.rdData, readCalls c n t with
      | some b, some (bs, u) => some (b :: bs, u)
      | _, _ => none
    | .fault _ => none
    | .refused _ => none

/-- The clock input shows `t`. -/
def State.atTime (s : State) (t : Time) : State := { s with port := { s.port with now := t } }

/-- One pulse on the write line: WRITE_BIT 1 at `t1`, WRITE_BIT 0 at `t0` (30_encoding.md R93). -/
def writeOnePulse (c : Config) (t1 t0 : Time) (s : State) : Result :=
  match writeBit c true (s.atTime t1) with
  | .next t => writeBit c false (t.atTime t0)
  | .fault r => .fault r
  | .refused r => .refused r

/-- A sequence of pulses on the write line, each as its two clock values. -/
def writePulses (c : Config) : List (Time × Time) → State → Result
  | [], s => .next s
  | (t1, t0) :: rest, s =>
    match writeOnePulse c t1 t0 s with
    | .next t => writePulses c rest t
    | .fault r => .fault r
    | .refused r => .refused r

/-- The symbols a list of timed pulses is classified as (40_interface_ops.md R133). -/
def pulseSymbols (c : Config) (ts : List (Time × Time)) : List Bit :=
  ts.map fun p => classify c (p.2 - p.1)

end Sys2Proof.Machine
end

