-- ==== Sys2Proof/Safety.lean ====
section
/-!
DEFINITION. What counts as a safe run, in the terms claims use: the reachable-state invariant of
10_state.md R51, which operation the next step runs, the clock's contract, and the parts of the event
history.
-/
namespace Sys2Proof.Machine

/-- The read state codes that are held between operations (R51). -/
def heldReadState (code : Code) : Prop :=
  code = 0 ∨ code = 1 ∨ code = 2 ∨ code = 3 ∨ code = 7 ∨ code = 8 ∨ code = 9

/-- The write state codes that are held between operations (R51). -/
def heldWriteState (code : Code) : Prop :=
  code = 0 ∨ code = 1 ∨ code = 2 ∨ code = 3 ∨ code = 4 ∨ code = 8 ∨ code = 9 ∨ code = 10

/-- The states in which a byte frame is under way (R25, R37). -/
def framedState (code : Code) : Prop := code = 2 ∨ code = 3 ∨ code = 8 ∨ code = 9

/-- The largest value `rcnt` reaches in a read state: its pulses or its data bits (R24). -/
def readLength (c : Config) (rd : ReadCursor) : Nat :=
  match rd.rstate.toNat with
  | 1 => c.rPreLen
  | 2 => c.hdrBits
  | 3 => c.cksBits
  | 7 => c.rBpreLen
  | 8 => 8 * rd.rblen.toNat
  | 9 => c.cksBits
  | _ => 0

/-- The largest value `wcnt` reaches in a write state (R36). -/
def writeLength (c : Config) (wr : WriteCursor) : Nat :=
  match wr.wstate.toNat with
  | 1 => c.wPreLen
  | 2 => c.hdrBits
  | 3 => c.cksBits
  | 4 => c.wSkip4
  | 8 => 8 * wr.wblen.toNat
  | 9 => c.cksBits
  | 10 => c.wSkip10 wr.wblen
  | _ => 0

/-- The read cursor as R51 and R24 have it between operations. -/
structure ReadCursor.Legal (c : Config) (rd : ReadCursor) : Prop where
  state_held : heldReadState rd.rstate
  sync_framed : rd.rsync = true → framedState rd.rstate
  cnt_bound : rd.rcnt.toNat ≤ readLength c rd
  sync_whole : framedState rd.rstate → rd.rsync = false → rd.rcnt.toNat % 8 = 0

/-- The write cursor as R51 and R36 have it between operations. -/
structure WriteCursor.Legal (c : Config) (wr : WriteCursor) : Prop where
  state_held : heldWriteState wr.wstate
  sync_framed : wr.wsync = true → framedState wr.wstate
  cnt_bound : wr.wcnt.toNat ≤ writeLength c wr
  sync_whole : framedState wr.wstate → wr.wsync = false → wr.wcnt.toNat % 8 = 0

/-- Both buffers are canonical and within their sizes (20_memory.md R61). -/
structure State.BuffersLegal (c : Config) (s : State) : Prop where
  header_wf : s.header.wf = true
  header_inside : s.header.inside c.hdrBytes = true
  body_wf : s.body.wf = true
  body_inside : s.body.inside c.bodyMax = true

/-- The invariant of every state a step leaves (R51). -/
structure State.Legal (c : Config) (s : State) : Prop where
  read : s.rd.Legal c
  write : s.wr.Legal c
  buffers : s.BuffersLegal c

/-- The clock's contract (10_state.md R48): the values of successive operations never fall. -/
def State.clockMonotone (s : State) : Prop :=
  (s.port.now :: s.queue.map fun i => i.side.now).Pairwise (· ≤ ·)

/-- The command word of the operation the next step executes (30_encoding.md R112). -/
def State.pendingWord (s : State) : Option Byte := s.queue.head?.map Input.cmd

/-- The next step is an advancing call: a READ_BIT that runs the read dispatcher (40_interface_ops.md
R131, item 3 at the data level). -/
def State.advancingCall (s : State) : Prop :=
  s.pendingWord = some 0x10#8 ∧ s.motor = true ∧ (s.sense = false ∨ s.wr.wstate = 0) ∧
    s.rd.rphase = .data

/-- The next step is an accepted falling edge: a WRITE_BIT 0 that runs the write dispatcher
(40_interface_ops.md R132). -/
def State.acceptedFallingEdge (s : State) : Prop :=
  s.pendingWord = some 0x20#8 ∧ s.motor = true ∧ s.sense = true ∧ s.wr.wline = true

/-- The read FSM stands before the eighth data bit of a body byte (41_read_fsm.md R171, R177). -/
def ReadCursor.atLastBodyBit (rd : ReadCursor) : Prop :=
  rd.rstate = 8 ∧ rd.rcnt.toNat < 8 * rd.rblen.toNat ∧ rd.rcnt.toNat % 8 = 7

/-- The write FSM stands before the eighth data bit of a body byte (42_write_fsm.md R207). -/
def WriteCursor.atLastBodyBit (wr : WriteCursor) : Prop :=
  wr.wstate = 8 ∧ wr.wcnt.toNat < 8 * wr.wblen.toNat ∧ wr.wcnt.toNat % 8 = 7

/-- An event of the log port. -/
def Event.isLog : Event → Bool
  | .log _ _ _ => true
  | .persist _ _ _ => false

/-- The log port's history (R34). -/
def State.logged (s : State) : List Event := s.events.filter Event.isLog

/-- The PERSIST requests raised so far (40_interface_ops.md R142). -/
def State.persisted (s : State) : List Event := s.events.filter fun e => !e.isLog

/-- No violation occurred between two states: the log is unchanged (60_exceptions.md R241). -/
def State.quiet (s t : State) : Prop := t.logged = s.logged

/-- What an operation may not touch, whatever it is: the queue and the latched side inputs. -/
def State.sameInputs (s t : State) : Prop := t.port = s.port ∧ t.queue = s.queue

/-- Both buffers read the same at every index. -/
def State.sameBuffers (s t : State) : Prop :=
  (∀ i, t.header.read i = s.header.read i) ∧ ∀ i, t.body.read i = s.body.read i

end Sys2Proof.Machine
end

