-- ==== Sys2Proof/Certificates/Slice0/Obligations.lean ====
section
/-!
DEFINITION. The statements for the provers, each citing the rule of spec/ it formalises. `exec` and
`step` run with `Config.machine`; a statement about a whole tape operation that depends on the open
parameters is said of the operations with the configuration as an argument.
-/
open Sys2Proof Sys2Proof.Machine

-- ===== encodings =====

/-- R103, R104, R112, R114: every instruction's word decodes, in the instruction's own space, to that
instruction with every operand, and leaves the bytes after it; and a byte that decodes in a space is
the word of an instruction of that space. -/
def Obligations.DecodingAndEncodingAgree : Prop :=
  (∀ (i : Instr) (rest : List Byte), i.wellFormed = true →
      decode i.space (encode i ++ rest) = .ok (i, rest)) ∧
  (∀ (sp : Space) (b : Byte) (rest rest' : List Byte) (i : Instr),
      decode sp (b :: rest) = .ok (i, rest') →
      i.space = sp ∧ encode i = [b] ∧ rest' = rest ∧ i.wellFormed = true)

/-- R112: the ten command words and their operations; no other word is an operation. -/
def Obligations.CommandWordsAreExactlyTheTables : Prop :=
  ∀ (cmd : Byte) (i : Instr), decodeCommand cmd = some i ↔
    (cmd = 0x10#8 ∧ i = .readBit) ∨ (cmd = 0x20#8 ∧ i = .writeBit false) ∨
    (cmd = 0x21#8 ∧ i = .writeBit true) ∨ (cmd = 0x30#8 ∧ i = .reset) ∨
    (cmd = 0x40#8 ∧ i = .preload) ∨ (cmd = 0x50#8 ∧ i = .setMotor false) ∨
    (cmd = 0x51#8 ∧ i = .setMotor true) ∨ (cmd = 0x60#8 ∧ i = .setSense false) ∨
    (cmd = 0x61#8 ∧ i = .setSense true) ∨ (cmd = 0x70#8 ∧ i = .senseToggle)

/-- R103, R104, R112: words written out from the spec's tables, one or more of each family, and a
command word that R112 says is not an operation. The last clause is in no table: a state code is four
bits (R10), and that a byte above 15 is rejected by name where a state code is read is the model's own
choice (DESIGN CHOICE, log entry 7). -/
def Obligations.WrittenOutWordsDecode : Prop :=
  decode .command [0b00010000#8] = .ok (.readBit, []) ∧
  decode .command [0b00100001#8] = .ok (.writeBit true, []) ∧
  decode .command [0b01000000#8] = .ok (.preload, []) ∧
  decode .command [0b01010001#8] = .ok (.setMotor true, []) ∧
  decode .command [0b00110001#8] = .error (.notAnOperation 0x31#8) ∧
  decode .readState [0b00000111#8] = .ok (.rBodyPre, []) ∧
  decode .readState [0b00001101#8] = .ok (.rStop, []) ∧
  decode .writeState [0b00000111#8] = .ok (.wUnknown7, []) ∧
  decode .writeState [0b00001010#8] = .ok (.wSkip10, []) ∧
  decode .readState [0b00010000#8] = .error (.notAStateCode 0x10#8)

/-- R95, R98: the preambles are runs of equal pulses, in the order the rules give. -/
def Obligations.PreamblesAreGapMarkAndLong : Prop :=
  ∀ c : Config, c.btm % 2 = 0 → c.stm % 2 = 0 →
    bigPreamble c = List.replicate c.rBgap short ++ List.replicate (c.btm / 2) long
      ++ List.replicate (c.btm / 2) short ++ [long] ∧
    bodyPreamble c = [long] ++ List.replicate c.rSgap short ++ List.replicate (c.stm / 2) long
      ++ List.replicate (c.stm / 2) short ++ [long]

/-- R9, R101, R212: the complete stream of a read of an n-byte body has `1552 + 9n` pulses at the
defaults, and a stream of the writer's format has the pulses R212 computes. -/
def Obligations.StreamLengthsAreAsComputed : Prop :=
  ∀ (header body : List Byte), header.length = 128 →
    (readStream Config.machine header body).length = 1552 + 9 * body.length ∧
    ∀ (n : Half) (skip4 skip10 : List Bit), n.toNat = body.length →
      skip4.length = Config.machine.wSkip4 → skip10.length = Config.machine.wSkip10 n →
      (writeStream Config.machine header body skip4 skip10).length = Config.machine.writePulses n

/-- 41_read_fsm.md R174, 95_test_vectors.md V3: a section of n bytes 0xFF has checksum 8n modulo
65536 (its sync pulses are not counted), a section of zeros has checksum 0. -/
def Obligations.ChecksumCountsDataBitsOnly : Prop :=
  ∀ n : Nat, checksumOf (List.replicate n 0xFF#8) = BitVec.ofNat 16 (8 * n) ∧
    checksumOf (List.replicate n 0#8) = 0

/-- R106: an image file is the header block and then as many bytes as the header declares; read back
from the file, whatever follows it, it is the same image, and a file shorter than that gives none. -/
def Obligations.ImageFileIsHeaderThenBody : Prop :=
  ∀ (img : Image) (rest : List Byte), imageConsistent Config.machine img = true →
    imageOfFile Config.machine (imageToFile img ++ rest) = some img ∧
    ∀ k, k < 128 + img.body.length → imageOfFile Config.machine ((imageToFile img).take k) = none

-- ===== the step =====

/-- R20, R112: a step decodes the word of the oldest pending operation and is `exec` of it, on the
state with that operation's side inputs latched, the rest of the queue left and no output yet. -/
def Obligations.StepExecutesTheOldestOperation : Prop :=
  ∀ (s : State) (inp : Input) (rest : List Input) (i : Instr),
    s.queue = inp :: rest → decode .command [inp.cmd] = .ok (i, []) →
    step s = exec i { s with port := inp.side, queue := rest, rdData := none }

/-- R270: nothing pending, nothing done. R112, 93_implementation_defined.md U3: a word that is no
operation is refused by name. -/
def Obligations.StepWithoutAnOperation : Prop :=
  (∀ s : State, s.queue = [] → step s = .next s) ∧
  ∀ (s : State) (inp : Input) (rest : List Input),
    s.queue = inp :: rest → decodeCommand inp.cmd = none →
    step s = .refused (.notAnOperation inp.cmd)

/-- 30_encoding.md R114, log entry 7: a command word placed by the host's interface is executed by
the next step; a state code placed by it is the handler the next step's advancing call enters. -/
def Obligations.PlacedWordIsExecutedNext : Prop :=
  (∀ (s : State) (i : Instr), i.space = .command →
    step (s.withFetchWord 8 (encodeByte i).toNat) = exec i { s with rdData := none }) ∧
  ∀ (s : State) (i : Instr), i.space = .readState →
    step (s.withFetchWord 8 (encodeByte i).toNat) =
      exec i { s with
        rd := { s.rd with rstate := (encodeByte i).setWidth 4, rphase := .trail }
        motor := true
        sense := s.sense && !writeInProgress s
        rdData := none }

/-- R49, R270: power-on. Every register is 0, the gates are off, both buffers read 0 everywhere, the
history is empty, and the block does nothing. -/
def Obligations.PowerOnStateIsAllZero : Prop :=
  State.reset.rd = ⟨0, .lead, 0, false, 0, 0, 0⟩ ∧
  State.reset.wr = ⟨0, 0, false, 0, 0, 0, 0, false, 0⟩ ∧
  State.reset.motor = false ∧ State.reset.sense = false ∧ State.reset.tcount = 0 ∧
  (∀ i, State.reset.header.read i = 0) ∧ (∀ i, State.reset.body.read i = 0) ∧
  State.reset.events = [] ∧ step State.reset = .next State.reset

-- ===== the operations at the boundary =====

/-- R131: the three items of READ_BIT in their order; the advancing call is the handler of `rstate`'s
code (R114, R170), with `rphase` written before it. -/
def Obligations.ReadBitFollowsItsThreeItems : Prop :=
  decodeCommand 0x10#8 = some .readBit ∧ ∀ s : State,
    (s.motor = false →
      exec .readBit s = .next { s with
        rd := { s.rd with rphase := if s.rd.rstate ≠ 0 then .lead else s.rd.rphase }
        rdData := some true }) ∧
    (s.motor = true → s.sense = true → s.wr.wstate ≠ 0 →
      exec .readBit s = .next { s with rdData := some true }) ∧
    (s.motor = true → (s.sense = false ∨ s.wr.wstate = 0) →
      (s.rd.rphase = .lead →
        exec .readBit s = .next { s with rd := { s.rd with rphase := .data }, rdData := some true }) ∧
      (s.rd.rphase = .trail →
        exec .readBit s = .next { s with rd := { s.rd with rphase := .lead }, rdData := some false }) ∧
      (s.rd.rphase = .data →
        exec .readBit s =
          exec (decodeReadCode s.rd.rstate) { s with rd := { s.rd with rphase := .trail } }))

/-- R132: WRITE_BIT does nothing outside the gate and nothing without an edge; a rising edge stamps
the clock; a falling edge is the handler of `wstate`'s code (R114, R200). -/
def Obligations.WriteBitFollowsGateAndEdges : Prop :=
  ∀ (b : Bit) (s : State),
    decodeCommand (if b = true then 0b00100001#8 else 0b00100000#8) = some (.writeBit b) ∧
    (s.motor = false ∨ s.sense = false → exec (.writeBit b) s = .next s) ∧
    (s.motor = true → s.sense = true →
      (b = true → s.wr.wline = false →
        exec (.writeBit b) s = .next { s with wr := { s.wr with wline := true, wt0 := s.port.now } }) ∧
      (b = s.wr.wline → exec (.writeBit b) s = .next s) ∧
      (b = false → s.wr.wline = true →
        exec (.writeBit b) s =
          exec (decodeWriteCode s.wr.wstate) { s with wr := { s.wr with wline := false } }))

/-- R133, R132: a pulse is SHORT exactly when the clock difference, modulo 2^64, is below the
threshold, 400 at the default. -/
def Obligations.PulseIsShortBelowTheThreshold : Prop :=
  ∀ s : State, pulseInHand Config.machine s = short ↔
    ((s.port.now.toNat + 2 ^ 64 - s.wr.wt0.toNat) % 2 ^ 64) < 400

/-- R134, R138: RESET zeroes both cursors and clears both gates, whatever the state, and nothing else;
a second RESET changes nothing. -/
def Obligations.ResetClearsCursorsAndGates : Prop :=
  ∀ s : State, ∃ t : State, exec .reset s = .next t ∧ exec .reset t = .next t ∧
    t = { s with
      rd := ⟨0, .lead, 0, false, 0, 0, 0⟩
      wr := ⟨0, 0, false, 0, 0, 0, 0, false, 0⟩
      motor := false
      sense := false }

/-- R139, R141, R143: the gate operations, with their words, write the gates and nothing else: `motor`
and `sense` need not be equal after any of them. -/
def Obligations.GateOperationsWriteTheGatesOnly : Prop :=
  ∀ (b : Bit) (s : State),
    decodeCommand (if b = true then 0b01010001#8 else 0b01010000#8) = some (.setMotor b) ∧
    decodeCommand (if b = true then 0b01100001#8 else 0b01100000#8) = some (.setSense b) ∧
    decodeCommand 0b01110000#8 = some .senseToggle ∧
    exec (.setMotor b) s = .next { s with motor := b } ∧
    exec (.setSense b) s = .next { s with sense := b } ∧
    exec .senseToggle s = .next { s with motor := !s.motor, sense := !s.sense }

/-- R140: PRELOAD of an image of n body bytes, n the declared length and at most `BODY_MAX`, replaces
the header and `body[0..n-1]`; every other byte and every other part of the state is kept. -/
def Obligations.PreloadReplacesTheBuffers : Prop :=
  ∀ (s : State) (h d : List Byte), s.BuffersLegal Config.machine → s.port.image = ⟨h, d⟩ →
    h.length = 128 → d.length = (h.getD 18 0).toNat + 256 * (h.getD 19 0).toNat →
    d.length ≤ Config.machine.bodyMax →
    ∃ t : State, exec .preload s = .next t ∧
      (∀ i, i < 128 → t.header.read i = h.getD i 0) ∧
      (∀ i, 128 ≤ i → t.header.read i = s.header.read i) ∧
      (∀ j, j < d.length → t.body.read j = d.getD j 0) ∧
      (∀ j, d.length ≤ j → t.body.read j = s.body.read j) ∧
      t = { s with header := t.header, body := t.body }

/-- 93_implementation_defined.md U1, R140: a PRELOAD whose body is longer than the body buffer is
refused by name, and so is one whose operands are not PRELOAD's (log entry 13). -/
def Obligations.PreloadIsRefusedOutsideItsDomain : Prop :=
  ∀ (c : Config) (s : State) (h d : List Byte), s.port.image = ⟨h, d⟩ →
    (¬ (h.length = c.hdrBytes ∧ d.length = (imageLength c h).toNat) →
      preload c s = .refused .preloadMalformed) ∧
    (h.length = c.hdrBytes → d.length = (imageLength c h).toNat → c.bodyMax < d.length →
      preload c s = .refused .preloadTooLong)

-- ===== the read FSM =====

/-- R171: the next pulse of the frame of a given byte. At a byte boundary the sync pulse, which counts nothing; else bit
`7 - (rcnt mod 8)`, counted where the section counts, with `rsync` cleared and (in Body) `tcount`
advanced at the eighth bit. -/
def Obligations.ByteFrameSendsSyncThenBits : Prop :=
  ∀ (byte : Byte) (counted isbody : Bool) (s : State),
    (s.rd.rcnt.toNat % 8 = 0 ∧ s.rd.rsync = false →
      rByteFrame byte counted isbody s =
        { s with rd := { s.rd with rsync := true }, rdData := some long }) ∧
    (¬ (s.rd.rcnt.toNat % 8 = 0 ∧ s.rd.rsync = false) →
      rByteFrame byte counted isbody s =
        { s with
          rd := { s.rd with
            rsum := if counted = true ∧ byte.getLsbD (7 - s.rd.rcnt.toNat % 8) = true
              then s.rd.rsum + 1 else s.rd.rsum
            rcnt := s.rd.rcnt + 1
            rsync := if (s.rd.rcnt + 1).toNat % 8 = 0 then false else s.rd.rsync }
          tcount := if (s.rd.rcnt + 1).toNat % 8 = 0 ∧ isbody = true then s.tcount + 1 else s.tcount
          rdData := some (byte.getLsbD (7 - s.rd.rcnt.toNat % 8)) })

/-- R172: R.IDLE clears the scratch and `tcount`, goes on to R.PREAMBLE in the same operation, and the
first gap pulse, SHORT, is returned. -/
def Obligations.ReadIdleStartsThePreamble : Prop :=
  ∀ s : State,
    exec .rIdle s = exec .rPreamble { s with
      rd := { s.rd with rstate := 1, rcnt := 0, rsync := false, rsum := 0, rblen := 0, rcks := 0 }
      tcount := 0 } ∧
    exec .rIdle s = .next { s with
      rd := { s.rd with rstate := 1, rcnt := 1, rsync := false, rsum := 0, rblen := 0, rcks := 0 }
      tcount := 0
      rdData := some short }

/-- R173: R.PREAMBLE returns `PRE(rcnt)` for 201 pulses, then falls through to R.HEADER. -/
def Obligations.ReadPreambleSendsItsPulses : Prop :=
  ∀ s : State,
    (s.rd.rcnt.toNat < 201 →
      exec .rPreamble s = .next { s with
        rd := { s.rd with rcnt := s.rd.rcnt + 1 }
        rdData := some (decide ((120 ≤ s.rd.rcnt.toNat ∧ s.rd.rcnt.toNat < 160)
          ∨ s.rd.rcnt.toNat = 200)) }) ∧
    (201 ≤ s.rd.rcnt.toNat →
      exec .rPreamble s =
        exec .rHeader { s with rd := { s.rd with rstate := 2, rcnt := 0, rsync := false } })

/-- R174: R.HEADER sends the byte frame of `header[rcnt div 8]` for 1024 data bits, counting, then
latches `rcks` and falls through to R.HDRCKS. -/
def Obligations.ReadHeaderSendsTheHeader : Prop :=
  ∀ s : State,
    (s.rd.rcnt.toNat < 1024 →
      exec .rHeader s = .next (rByteFrame (s.header.read (s.rd.rcnt.toNat / 8)) true false s)) ∧
    (1024 ≤ s.rd.rcnt.toNat →
      exec .rHeader s = exec .rHdrCks { s with
        rd := { s.rd with rstate := 3, rcnt := 0, rsync := false, rcks := s.rd.rsum } })

/-- R175: R.HDRCKS sends the byte frames of `rcks[15:8]` and `rcks[7:0]` without counting, then clears
`rsum`, latches the declared length little-endian (R65) and falls through to R.BODYPRE. -/
def Obligations.ReadHeaderChecksumSendsItsBytes : Prop :=
  ∀ s : State,
    (s.rd.rcnt.toNat < 16 →
      exec .rHdrCks s = .next (rByteFrame
        (if s.rd.rcnt.toNat < 8 then s.rd.rcks.extractLsb' 8 8 else s.rd.rcks.extractLsb' 0 8)
        false false s)) ∧
    (16 ≤ s.rd.rcnt.toNat →
      exec .rHdrCks s = exec .rBodyPre { s with
        rd := { s.rd with
          rstate := 7, rcnt := 0, rsync := false, rsum := 0
          rblen := BitVec.ofNat 16 ((s.header.read 18).toNat + 256 * (s.header.read 19).toNat) } })

/-- R176: R.BODYPRE returns `BPRE(rcnt)` for 162 pulses, then falls through to R.BODY. -/
def Obligations.ReadBodyPreambleSendsItsPulses : Prop :=
  ∀ s : State,
    (s.rd.rcnt.toNat < 162 →
      exec .rBodyPre s = .next { s with
        rd := { s.rd with rcnt := s.rd.rcnt + 1 }
        rdData := some (decide (s.rd.rcnt.toNat = 0
          ∨ (121 ≤ s.rd.rcnt.toNat ∧ s.rd.rcnt.toNat < 141) ∨ s.rd.rcnt.toNat = 161)) }) ∧
    (162 ≤ s.rd.rcnt.toNat →
      exec .rBodyPre s =
        exec .rBody { s with rd := { s.rd with rstate := 8, rcnt := 0, rsync := false } })

/-- R177: R.BODY sends the byte frame of `body[rcnt div 8]` for `8 * rblen` data bits, counting them
and the bytes, then latches `rcks` and falls through to R.BODYCKS; in every configuration an index of
`BODY_MAX` or more has no meaning (R68). -/
def Obligations.ReadBodySendsTheBody : Prop :=
  ∀ s : State,
    (s.rd.rcnt.toNat < 8 * s.rd.rblen.toNat → s.rd.rcnt.toNat / 8 < Config.machine.bodyMax →
      exec .rBody s = .next (rByteFrame (s.body.read (s.rd.rcnt.toNat / 8)) true true s)) ∧
    (∀ c : Config, s.rd.rcnt.toNat < 8 * s.rd.rblen.toNat → c.bodyMax ≤ s.rd.rcnt.toNat / 8 →
      readFromBody c s = .fault .bodyIndex) ∧
    (8 * s.rd.rblen.toNat ≤ s.rd.rcnt.toNat →
      exec .rBody s = exec .rBodyCks { s with
        rd := { s.rd with rstate := 9, rcnt := 0, rsync := false, rcks := s.rd.rsum } })

/-- R178: R.BODYCKS sends the two bytes of `rcks` without counting, then falls through to R.STOP. -/
def Obligations.ReadBodyChecksumSendsItsBytes : Prop :=
  ∀ s : State,
    (s.rd.rcnt.toNat < 16 →
      exec .rBodyCks s = .next (rByteFrame
        (if s.rd.rcnt.toNat < 8 then s.rd.rcks.extractLsb' 8 8 else s.rd.rcks.extractLsb' 0 8)
        false false s)) ∧
    (16 ≤ s.rd.rcnt.toNat →
      exec .rBodyCks s =
        exec .rStop { s with rd := { s.rd with rstate := 13, rcnt := 0, rsync := false } })

/-- R179: R.STOP returns LONG and resets both cursors and both gates; `tcount`, the buffers and the
history keep their values. -/
def Obligations.ReadStopResetsTheBlock : Prop :=
  ∀ s : State, exec .rStop s = .next { s with
    rd := ⟨0, .lead, 0, false, 0, 0, 0⟩
    wr := ⟨0, 0, false, 0, 0, 0, 0, false, 0⟩
    motor := false
    sense := false
    rdData := some long }

/-- R180: each reserved or unused read code logs `R_UNKNOWN_STATE` with the code, zeroes the read
cursor and returns LONG; the gates and the write cursor are left alone. -/
def Obligations.UnknownReadStateLogsAndResets : Prop :=
  ∀ (s : State) (i : Instr),
    i ∈ [Instr.rUnknown4, .rUnknown5, .rUnknown6, .rUnknown10, .rUnknown11, .rUnknown12,
      .rUnknown14, .rUnknown15] →
    exec i s = .next { s with
      rd := ⟨0, .lead, 0, false, 0, 0, 0⟩
      events := s.events ++ [.log .rUnknownState (s.rd.rstate.setWidth 32) 0]
      rdData := some long }

-- ===== the write FSM =====

/-- R202: W.IDLE clears the scratch and `tcount` and goes on to W.PREAMBLE with the same pulse, which
is the preamble's first. -/
def Obligations.WriteIdleStartsThePreamble : Prop :=
  ∀ s : State,
    exec .wIdle s = exec .wPreamble { s with
      wr := { s.wr with
        wstate := 1, wcnt := 0, wsync := false, wsum := 0, wblen := 0, wbyte := 0, wcks := 0 }
      tcount := 0 } ∧
    exec .wIdle s = .next (
      if pulseInHand Config.machine s = wprePulse Config.machine 0 then
        { s with
          wr := { s.wr with
            wstate := 1, wcnt := 1, wsync := false, wsum := 0, wblen := 0, wbyte := 0, wcks := 0 }
          tcount := 0 }
      else
        { s with
          wr := ⟨0, 0, false, 0, 0, 0, 0, false, 0⟩
          tcount := 0
          events := s.events ++
            [.log .wPreambleMismatch 0 (if pulseInHand Config.machine s = true then 1 else 0)] })

/-- R203: W.PREAMBLE counts a pulse equal to `WPRE(wcnt)`; any other is logged with its position and
symbol and zeroes the write cursor, motor and sense staying on; after `W_PRE_LEN` pulses it falls
through to W.HEADER. -/
def Obligations.WritePreambleChecksEveryPulse : Prop :=
  ∀ (s : State) (p : Bit), pulseInHand Config.machine s = p →
    (s.wr.wcnt.toNat < Config.machine.wPreLen →
      exec .wPreamble s = .next (
        if p = wprePulse Config.machine s.wr.wcnt.toNat then
          { s with wr := { s.wr with wcnt := s.wr.wcnt + 1 } }
        else
          { s with
            wr := ⟨0, 0, false, 0, 0, 0, 0, false, 0⟩
            events := s.events ++
              [.log .wPreambleMismatch s.wr.wcnt (if p = true then 1 else 0)] })) ∧
    (Config.machine.wPreLen ≤ s.wr.wcnt.toNat →
      exec .wPreamble s = exec .wHeader { s with
        wr := { s.wr with wstate := 2, wcnt := 0, wsync := false, wbyte := 0 } })

/-- R204, R201: W.HEADER drops the sync pulse unchecked, shifts a data pulse into `wbyte` and counts
it in `wsum`, stores the byte at `header[wcnt div 8 - 1]` with its eighth bit, and after 1024 data
bits falls through to W.HDRCKS. -/
def Obligations.WriteHeaderRebuildsTheHeader : Prop :=
  ∀ (s : State) (p : Bit), pulseInHand Config.machine s = p →
    (s.wr.wcnt.toNat < 1024 → s.wr.wcnt.toNat % 8 = 0 → s.wr.wsync = false →
      exec .wHeader s = .next { s with wr := { s.wr with wsync := true } }) ∧
    (s.wr.wcnt.toNat < 1024 → ¬ (s.wr.wcnt.toNat % 8 = 0 ∧ s.wr.wsync = false) →
      (s.wr.wcnt.toNat + 1) % 8 ≠ 0 →
      exec .wHeader s = .next { s with
        wr := { s.wr with
          wbyte := (s.wr.wbyte <<< 1) ||| (if p = true then 1#8 else 0#8)
          wsum := if p = true then s.wr.wsum + 1 else s.wr.wsum
          wcnt := s.wr.wcnt + 1 } }) ∧
    (s.wr.wcnt.toNat < 1024 → (s.wr.wcnt.toNat + 1) % 8 = 0 →
      exec .wHeader s = .next { s with
        wr := { s.wr with
          wbyte := (s.wr.wbyte <<< 1) ||| (if p = true then 1#8 else 0#8)
          wsum := if p = true then s.wr.wsum + 1 else s.wr.wsum
          wcnt := s.wr.wcnt + 1
          wsync := false }
        header := s.header.write ((s.wr.wcnt.toNat + 1) / 8 - 1)
          ((s.wr.wbyte <<< 1) ||| (if p = true then 1#8 else 0#8)) }) ∧
    (1024 ≤ s.wr.wcnt.toNat →
      exec .wHeader s = exec .wHdrCks { s with
        wr := { s.wr with wstate := 3, wcnt := 0, wsync := false, wcks := 0 } })

/-- R205, R208: a checksum state drops the sync pulse, shifts a data pulse into `wcks`, and at the
sixteenth bit logs a difference from `wsum` and goes on; after 16 bits W.HDRCKS clears `wsum`, latches
the declared length (R65) and falls through to W.SKIP4, and W.BODYCKS falls through to W.SKIP10. -/
def Obligations.WriteChecksumsAreComparedAtTheSixteenthBit : Prop :=
  ∀ (s : State) (p : Bit) (cks : Half), pulseInHand Config.machine s = p →
    cks = (s.wr.wcks <<< 1) ||| (if p = true then 1#16 else 0#16) →
    (s.wr.wcnt.toNat < 16 → s.wr.wcnt.toNat % 8 = 0 → s.wr.wsync = false →
      exec .wHdrCks s = .next { s with wr := { s.wr with wsync := true } } ∧
      exec .wBodyCks s = .next { s with wr := { s.wr with wsync := true } }) ∧
    (s.wr.wcnt.toNat < 16 → ¬ (s.wr.wcnt.toNat % 8 = 0 ∧ s.wr.wsync = false) →
      ∀ w : WriteCursor, w = { s.wr with
          wcks := cks
          wcnt := s.wr.wcnt + 1
          wsync := if (s.wr.wcnt.toNat + 1) % 8 = 0 then false else s.wr.wsync } →
      exec .wHdrCks s = .next { s with
        wr := w
        events := s.events ++ (if s.wr.wcnt = 15 ∧ cks ≠ s.wr.wsum then
          [.log .wHdrCksMismatch (s.wr.wsum.setWidth 32) (cks.setWidth 32)] else []) } ∧
      exec .wBodyCks s = .next { s with
        wr := w
        events := s.events ++ (if s.wr.wcnt = 15 ∧ cks ≠ s.wr.wsum then
          [.log .wBodyCksMismatch (s.wr.wsum.setWidth 32) (cks.setWidth 32)] else []) }) ∧
    (16 ≤ s.wr.wcnt.toNat →
      exec .wHdrCks s = exec .wSkip4 { s with
        wr := { s.wr with
          wstate := 4, wcnt := 0, wsync := false, wsum := 0
          wblen := BitVec.ofNat 16 ((s.header.read 18).toNat + 256 * (s.header.read 19).toNat) } } ∧
      exec .wBodyCks s = exec .wSkip10 { s with
        wr := { s.wr with wstate := 10, wcnt := 0, wsync := false } })

/-- R206: W.SKIP4 counts `W_SKIP4` pulses of any symbol; the next one is the sync pulse of `body[0]`,
or of the body checksum where the body is empty. -/
def Obligations.WriteSkip4CountsThenEntersTheBody : Prop :=
  ∀ s : State,
    exec .wSkip4 s = .next (
      if s.wr.wcnt.toNat < Config.machine.wSkip4 then
        { s with wr := { s.wr with wcnt := s.wr.wcnt + 1 } }
      else if s.wr.wblen ≠ 0 then
        { s with wr := { s.wr with wstate := 8, wcnt := 0, wsync := true, wbyte := 0 } }
      else
        { s with wr := { s.wr with wstate := 9, wcnt := 0, wsync := true, wbyte := 0, wcks := 0 } }) ∧
    (Config.machine.wSkip4 ≤ s.wr.wcnt.toNat →
      exec .wSkip4 s = exec .wBody { s with
        wr := { s.wr with wstate := 8, wcnt := 0, wsync := false, wbyte := 0 } })

/-- R207, R201: W.BODY rebuilds `8 * wblen` data bits as W.HEADER does, storing at
`body[wcnt div 8 - 1]` and advancing `tcount` with each byte, then falls through to W.BODYCKS; in every
configuration an index of `BODY_MAX` or more has no meaning (R68). -/
def Obligations.WriteBodyRebuildsTheBody : Prop :=
  ∀ (s : State) (p : Bit), pulseInHand Config.machine s = p →
    (s.wr.wcnt.toNat < 8 * s.wr.wblen.toNat → s.wr.wcnt.toNat % 8 = 0 → s.wr.wsync = false →
      exec .wBody s = .next { s with wr := { s.wr with wsync := true } }) ∧
    (s.wr.wcnt.toNat < 8 * s.wr.wblen.toNat →
      ¬ (s.wr.wcnt.toNat % 8 = 0 ∧ s.wr.wsync = false) → (s.wr.wcnt.toNat + 1) % 8 ≠ 0 →
      exec .wBody s = .next { s with
        wr := { s.wr with
          wbyte := (s.wr.wbyte <<< 1) ||| (if p = true then 1#8 else 0#8)
          wsum := if p = true then s.wr.wsum + 1 else s.wr.wsum
          wcnt := s.wr.wcnt + 1 } }) ∧
    (s.wr.wcnt.toNat < 8 * s.wr.wblen.toNat → (s.wr.wcnt.toNat + 1) % 8 = 0 →
      (s.wr.wcnt.toNat + 1) / 8 - 1 < Config.machine.bodyMax →
      exec .wBody s = .next { s with
        wr := { s.wr with
          wbyte := (s.wr.wbyte <<< 1) ||| (if p = true then 1#8 else 0#8)
          wsum := if p = true then s.wr.wsum + 1 else s.wr.wsum
          wcnt := s.wr.wcnt + 1
          wsync := false }
        body := s.body.write ((s.wr.wcnt.toNat + 1) / 8 - 1)
          ((s.wr.wbyte <<< 1) ||| (if p = true then 1#8 else 0#8))
        tcount := s.tcount + 1 }) ∧
    (∀ c : Config, s.wr.wcnt.toNat < 8 * s.wr.wblen.toNat → (s.wr.wcnt.toNat + 1) % 8 = 0 →
      c.bodyMax ≤ (s.wr.wcnt.toNat + 1) / 8 - 1 → writeFromBody c p s = .fault .bodyIndex) ∧
    (8 * s.wr.wblen.toNat ≤ s.wr.wcnt.toNat →
      exec .wBody s = exec .wBodyCks { s with
        wr := { s.wr with wstate := 9, wcnt := 0, wsync := false, wcks := 0 } })

/-- R210: in W.STOP a LONG pulse raises one PERSIST with the whole header and `body[0..wblen-1]` and
resets the block; a SHORT pulse is logged and zeroes the write cursor only. Where `wblen` exceeds
`BODY_MAX` the snapshot leaves the body buffer and, by the model's own reading of R62 and R68 (DEDUCED,
log entry 12), the step has no meaning. -/
def Obligations.WriteStopPersistsOrGivesUp : Prop :=
  ∀ s : State,
    (pulseInHand Config.machine s = long → s.wr.wblen.toNat ≤ Config.machine.bodyMax →
      exec .wStop s = .next { s with
        rd := ⟨0, .lead, 0, false, 0, 0, 0⟩
        wr := ⟨0, 0, false, 0, 0, 0, 0, false, 0⟩
        motor := false
        sense := false
        events := s.events ++ [.persist ((List.range 128).map s.header.read)
          ((List.range s.wr.wblen.toNat).map s.body.read) s.wr.wblen] }) ∧
    (∀ c : Config, c.bodyMax < s.wr.wblen.toNat → writeFromStop c long s = .fault .bodyIndex) ∧
    (pulseInHand Config.machine s = short →
      exec .wStop s = .next { s with
        wr := ⟨0, 0, false, 0, 0, 0, 0, false, 0⟩
        events := s.events ++ [.log .wStopMismatch 0 0] })

/-- R209: W.SKIP10 counts `W_SKIP10(wblen)` pulses, whatever their symbol and whatever `wblen`, in every
configuration, the machine's among them. The next pulse falls through to W.STOP with `wstate` = 13 and
`wcnt` cleared and is W.STOP's: a LONG one completes the write where the body fits the buffer, a SHORT one
is the stop mismatch (R210). -/
def Obligations.WriteSkip10CountsThenStops : Prop :=
  ∀ s : State,
    (∀ (c : Config) (p : Bit), s.wr.wcnt.toNat < c.wSkip10 s.wr.wblen →
      writeFromSkip10 c p s = .next { s with wr := { s.wr with wcnt := s.wr.wcnt + 1 } }) ∧
    (s.wr.wcnt.toNat < Config.machine.wSkip10 s.wr.wblen →
      exec .wSkip10 s = .next { s with wr := { s.wr with wcnt := s.wr.wcnt + 1 } }) ∧
    (Config.machine.wSkip10 s.wr.wblen ≤ s.wr.wcnt.toNat →
      exec .wSkip10 s = exec .wStop { s with wr := { s.wr with wstate := 13, wcnt := 0 } } ∧
      (pulseInHand Config.machine s = long → s.wr.wblen.toNat ≤ Config.machine.bodyMax →
        exec .wSkip10 s = .next { s with
          rd := ⟨0, .lead, 0, false, 0, 0, 0⟩
          wr := ⟨0, 0, false, 0, 0, 0, 0, false, 0⟩
          motor := false
          sense := false
          events := s.events ++ [.persist ((List.range 128).map s.header.read)
            ((List.range s.wr.wblen.toNat).map s.body.read) s.wr.wblen] }) ∧
      (pulseInHand Config.machine s = short →
        exec .wSkip10 s = .next { s with
          wr := ⟨0, 0, false, 0, 0, 0, 0, false, 0⟩
          events := s.events ++ [.log .wStopMismatch 0 0] }))

/-- R211: each unused write code logs `W_UNKNOWN_STATE` with the code and zeroes the write cursor; the
read cursor and the gates are left alone. -/
def Obligations.UnknownWriteStateLogsAndResets : Prop :=
  ∀ (s : State) (i : Instr),
    i ∈ [Instr.wUnknown5, .wUnknown6, .wUnknown7, .wUnknown11, .wUnknown12, .wUnknown14,
      .wUnknown15] →
    exec i s = .next { s with
      wr := ⟨0, 0, false, 0, 0, 0, 0, false, 0⟩
      events := s.events ++ [.log .wUnknownState (s.wr.wstate.setWidth 32) 0] }

-- ===== faults =====

/-- R284, R68: with latched body lengths that fit the body buffer no step faults; `fault(BodyIndex)`
is reached only through a declared length above `BODY_MAX`. -/
def Obligations.FittingLengthsNeverFault : Prop :=
  ∀ (s : State) (r : Fault),
    s.rd.rblen.toNat ≤ Config.machine.bodyMax → s.wr.wblen.toNat ≤ Config.machine.bodyMax →
    step s ≠ .fault r

-- ===== frames =====

/-- R34, R249, R241: whatever an instruction does, it adds at most one event, at the end of the history.
That it leaves the latched side inputs (`port`) and the pending operations (`queue`) as they are is about
the model's own fields, which the spec does not give the block (DESIGN CHOICE, log entries 1 and 2). -/
def Obligations.HistoryOnlyGrowsByOneEvent : Prop :=
  ∀ (i : Instr) (s t : State), exec i s = .next t →
    t.port = s.port ∧ t.queue = s.queue ∧
    (t.events = s.events ∨ ∃ e, t.events = s.events ++ [e])

/-- Frame of READ_BIT and the read state handlers (R50, R179, R180): every byte of both buffers is
unchanged; the write cursor and the gates are unchanged unless the read ends in R.STOP, which zeroes
the cursors and clears the gates; the history is unchanged unless the code was unknown. -/
def Obligations.ReadSideFrame : Prop :=
  ∀ (i : Instr) (s t : State), (i = .readBit ∨ i.space = .readState) → exec i s = .next t →
    (∀ a, t.header.read a = s.header.read a) ∧ (∀ a, t.body.read a = s.body.read a) ∧
    ((t.wr = s.wr ∧ t.motor = s.motor ∧ t.sense = s.sense) ∨
      (t.rd = ReadCursor.zero ∧ t.wr = WriteCursor.zero ∧ t.motor = false ∧ t.sense = false)) ∧
    (t.events = s.events ∨
      (t.rd = ReadCursor.zero ∧
        t.events = s.events ++ [.log .rUnknownState (s.rd.rstate.setWidth 32) 0]))

/-- Frame of WRITE_BIT and the write state handlers (R50, R210): the read cursor and the gates are
unchanged unless the write ends in a PERSIST, which resets the block; `rd_data` is unchanged. -/
def Obligations.WriteSideFrame : Prop :=
  ∀ (i : Instr) (s t : State), ((∃ b, i = .writeBit b) ∨ i.space = .writeState) →
    exec i s = .next t →
    t.rdData = s.rdData ∧
    ((t.rd = s.rd ∧ t.motor = s.motor ∧ t.sense = s.sense) ∨
      (t.rd = ReadCursor.zero ∧ t.wr = WriteCursor.zero ∧ t.motor = false ∧ t.sense = false ∧
        ∃ h b n, t.events = s.events ++ [.persist h b n]))

/-- Memory frame of the write state handlers (R204, R207): W.HEADER changes no byte of either buffer
but the header byte at `(wcnt + 1) div 8 - 1`, and that one only with an eighth data bit; W.BODY the
same of the body buffer; every other write handler, and WRITE_BIT on a rising edge or outside the
gate, changes no byte. -/
def Obligations.WriteHandlersStoreOneByteOnly : Prop :=
  ∀ (s t : State),
    (exec .wHeader s = .next t →
      (∀ a, t.body.read a = s.body.read a) ∧
      ∀ a, ¬ (s.wr.wcnt.toNat < 1024 ∧ (s.wr.wcnt.toNat + 1) % 8 = 0
          ∧ a = (s.wr.wcnt.toNat + 1) / 8 - 1) →
        t.header.read a = s.header.read a) ∧
    (exec .wBody s = .next t →
      (∀ a, t.header.read a = s.header.read a) ∧
      ∀ a, ¬ (s.wr.wcnt.toNat < 8 * s.wr.wblen.toNat ∧ (s.wr.wcnt.toNat + 1) % 8 = 0
          ∧ a = (s.wr.wcnt.toNat + 1) / 8 - 1) →
        t.body.read a = s.body.read a) ∧
    (∀ i : Instr, i.space = .writeState → i ≠ .wHeader → i ≠ .wBody → exec i s = .next t →
      (∀ a, t.header.read a = s.header.read a) ∧ ∀ a, t.body.read a = s.body.read a) ∧
    ((s.motor = false ∨ s.sense = false ∨ s.wr.wline = false) → ∀ b, exec (.writeBit b) s = .next t →
      (∀ a, t.header.read a = s.header.read a) ∧ ∀ a, t.body.read a = s.body.read a)

/-- R33, R171, R172, R202, R207: over a step, `tcount` is cleared by the advancing call or the accepted
falling edge that finds its own FSM in Idle, advanced by one, modulo 65536, by the one that handles the
eighth data bit of a body byte in its own FSM's Body, and kept by every other step. -/
def Obligations.TapeCounterCountsBodyBytes : Prop :=
  ∀ s t : State, step s = .next t →
    (s.advancingCall → s.rd.rstate = 0 → t.tcount = 0) ∧
    (s.advancingCall → s.rd.atLastBodyBit → t.tcount = s.tcount + 1) ∧
    (s.acceptedFallingEdge → s.wr.wstate = 0 → t.tcount = 0) ∧
    (s.acceptedFallingEdge → s.wr.atLastBodyBit → t.tcount = s.tcount + 1) ∧
    (¬ (s.advancingCall ∧ (s.rd.rstate = 0 ∨ s.rd.atLastBodyBit)) →
      ¬ (s.acceptedFallingEdge ∧ (s.wr.wstate = 0 ∨ s.wr.atLastBodyBit)) →
      t.tcount = s.tcount)

-- ===== whole-machine rules =====

/-- R30, R31: neither READ_BIT, WRITE_BIT, RESET, PRELOAD nor any state handler ever sets `motor` or
`sense` to 1; only the three gate operations can. -/
def Obligations.OnlyGateOperationsSetAGate : Prop :=
  ∀ (i : Instr) (s t : State), exec i s = .next t →
    ((s.motor = false ∧ t.motor = true) ∨ (s.sense = false ∧ t.sense = true)) →
    i = .setMotor true ∨ i = .setSense true ∨ i = .senseToggle

/-- R183: while the motor is off any number of READ_BIT calls return 1 and change no register but,
where a read is in progress, `rphase`; while a write is in progress with both gates on they return 1
and change no register at all. -/
def Obligations.IdleReadsReturnOneAndChangeNothing : Prop :=
  ∀ (n : Nat) (s : State),
    (s.motor = false → ∃ t, readCalls Config.machine n s = some (List.replicate n true, t) ∧
      ∃ d, t = { s with
        rd := { s.rd with rphase := if s.rd.rstate ≠ 0 ∧ n ≠ 0 then .lead else s.rd.rphase }
        rdData := d }) ∧
    (s.motor = true → s.sense = true → s.wr.wstate ≠ 0 →
      ∃ t, readCalls Config.machine n s = some (List.replicate n true, t) ∧
        ∃ d, t = { s with rdData := d })

/-- R213: a step adds a PERSIST to the history only where it is a falling edge inside the gate with a
LONG pulse that is the stop pulse: the write stands in Stop, or in Skip(10) with all `W_SKIP10(wblen)`
pulses counted, or in BodyChecksum with all 16 bits received and no pulse to skip. The payload is the
buffers and `wblen` as that step found them; the block is reset. -/
def Obligations.PersistOnlyAtTheEndOfAWholeWrite : Prop :=
  ∀ (s t : State) (h b : List Byte) (n : Half), step s = .next t →
    t.events = s.events ++ [.persist h b n] →
    (∃ inp rest, s.queue = inp :: rest ∧ inp.cmd = 0x20#8 ∧
      classify Config.machine (inp.side.now - s.wr.wt0) = long) ∧
    s.motor = true ∧ s.sense = true ∧ s.wr.wline = true ∧
    ((s.wr.wstate = 9 ∧ 16 ≤ s.wr.wcnt.toNat ∧ Config.machine.wSkip10 s.wr.wblen = 0) ∨
      (s.wr.wstate = 10 ∧ Config.machine.wSkip10 s.wr.wblen ≤ s.wr.wcnt.toNat) ∨
      s.wr.wstate = 13) ∧
    h = s.header.bytes 128 ∧ b = s.body.bytes s.wr.wblen.toNat ∧ n = s.wr.wblen ∧
    t.wr = WriteCursor.zero ∧ t.motor = false ∧ t.sense = false

/-- R45, R46, R61: every instruction keeps both buffers in their canonical form and within their
sizes. -/
def Obligations.BuffersStayLegal : Prop :=
  ∀ (i : Instr) (s t : State), s.BuffersLegal Config.machine → exec i s = .next t →
    t.BuffersLegal Config.machine

/-- R51, R24, R36: the states of the two FSMs, their sync flags and their counters stay as the rules
have them between operations, and the buffers stay legal: every step keeps it. -/
def Obligations.EveryStepKeepsTheStateLegal : Prop :=
  ∀ s t : State, s.Legal Config.machine → step s = .next t → t.Legal Config.machine

/-- The power-on state is legal. -/
def Obligations.PowerOnStateIsLegal : Prop := State.reset.Legal Config.machine

-- ===== whole tape operations =====

/-- R101, R92, R179, R177: from an idle read cursor with the motor on and no write holding it off,
a complete read of buffers that declare n body bytes takes `3 x (1552 + 9n) - 1` READ_BIT calls; they
return the three-level frames of the complete stream, and leave the block reset with `tcount` = n and
the buffers untouched. -/
def Obligations.CompleteReadPlaysTheStream : Prop :=
  ∀ (s : State) (h b : List Byte),
    h = s.header.bytes 128 → b = s.body.bytes b.length →
    b.length = (h.getD 18 0).toNat + 256 * (h.getD 19 0).toNat →
    b.length ≤ Config.machine.bodyMax →
    s.motor = true → (s.sense = false ∨ s.wr.wstate = 0) → s.rd = ReadCursor.zero →
    readCalls Config.machine (3 * (1552 + 9 * b.length) - 1) s =
      some (readLevels Config.machine h b,
        { s with
          rd := ReadCursor.zero
          wr := WriteCursor.zero
          motor := false
          sense := false
          tcount := BitVec.ofNat 16 b.length
          rdData := some true })

/-- R102, R204 to R210: in every well-formed configuration, a stream of the writer's format, each
pulse at whatever times its symbol needs, is accepted from an idle write cursor: one PERSIST with the
image, no other event, the buffers holding the image, the block reset, `tcount` = n. -/
def Obligations.WriterAcceptsItsFormat : Prop :=
  ∀ (c : Config) (s : State) (h b : List Byte) (skip4 skip10 : List Bit) (ts : List (Time × Time)),
    c.WellFormed → h.length = c.hdrBytes → b.length = (imageLength c h).toNat →
    b.length ≤ c.bodyMax → skip4.length = c.wSkip4 → skip10.length = c.wSkip10 (imageLength c h) →
    pulseSymbols c ts = writeStream c h b skip4 skip10 →
    s.BuffersLegal c → s.motor = true → s.sense = true → s.wr = WriteCursor.zero →
    ∃ t, writePulses c ts s = .next t ∧
      t.events = s.events ++ [.persist h b (imageLength c h)] ∧
      t.header.bytes c.hdrBytes = h ∧ t.body.bytes b.length = b ∧
      (∀ j, b.length ≤ j → t.body.read j = s.body.read j) ∧
      t.rd = ReadCursor.zero ∧ t.wr = WriteCursor.zero ∧ t.motor = false ∧ t.sense = false ∧
      t.tcount = BitVec.ofNat 16 b.length

/-- R214, DOC0 §8 prop 1: where the writer's parameters describe the reader's abbreviated stream, the
symbols of a complete read, written back, rebuild the image byte for byte and raise one PERSIST with
it and no other event. -/
def Obligations.RoundTripUnderTheReadersParameters : Prop :=
  ∀ (c : Config) (s : State) (h b : List Byte) (ts : List (Time × Time)),
    c.WellFormed → c.wbgapL = c.rBgap → c.wSkip4 = c.rBpreLen → (∀ n, c.wSkip10 n = 0) →
    h.length = c.hdrBytes → b.length = (imageLength c h).toNat → b.length ≤ c.bodyMax →
    pulseSymbols c ts = readStream c h b →
    s.BuffersLegal c → s.motor = true → s.sense = true → s.wr = WriteCursor.zero →
    ∃ t, writePulses c ts s = .next t ∧
      t.events = s.events ++ [.persist h b (imageLength c h)] ∧
      t.header.bytes c.hdrBytes = h ∧ t.body.bytes b.length = b ∧
      t.wr = WriteCursor.zero ∧ t.motor = false ∧ t.sense = false

/-- R214, R203, 95_test_vectors.md T34: a writer that expects a longer big gap logs its first mismatch
against the reader's preamble at position `R_BGAP`, one that expects a shorter gap at position `WBGAP_L`;
up to and with that pulse nothing is stored and no other event is logged. The rest of the reader's stream
is not part of the statement. -/
def Obligations.FirstMismatchIsWhereTheGapsDiffer : Prop :=
  ∀ (c : Config) (s : State) (ts : List (Time × Time)),
    c.WellFormed → 2 ≤ c.btm → s.motor = true → s.sense = true → s.wr = WriteCursor.zero →
    (c.rBgap < c.wbgapL → pulseSymbols c ts = (bigPreamble c).take (c.rBgap + 1) →
      ∃ t, writePulses c ts s = .next t ∧ t.wr = WriteCursor.zero ∧
        t.header = s.header ∧ t.body = s.body ∧
        t.events = s.events ++ [.log .wPreambleMismatch (BitVec.ofNat 32 c.rBgap) 1]) ∧
    (c.wbgapL < c.rBgap → pulseSymbols c ts = (bigPreamble c).take (c.wbgapL + 1) →
      ∃ t, writePulses c ts s = .next t ∧ t.wr = WriteCursor.zero ∧
        t.header = s.header ∧ t.body = s.body ∧
        t.events = s.events ++ [.log .wPreambleMismatch (BitVec.ofNat 32 c.wbgapL) 0])
end

