-- ==== Sys2Proof/Laws/Config.lean ====
section
/-!
SUPPORT. The configuration the machine runs with: its lengths at DOC0's defaults, and that it is well
formed whatever the open parameters are.
-/
namespace Sys2Proof

@[simp] theorem Config.machine_rPreLen : Config.machine.rPreLen = 201 := rfl
@[simp] theorem Config.machine_rBpreLen : Config.machine.rBpreLen = 162 := rfl
@[simp] theorem Config.machine_hdrBytes : Config.machine.hdrBytes = 128 := rfl
@[simp] theorem Config.machine_hdrBits : Config.machine.hdrBits = 1024 := rfl
@[simp] theorem Config.machine_cksBits : Config.machine.cksBits = 16 := rfl
@[simp] theorem Config.machine_lenOff : Config.machine.lenOff = 18 := rfl
@[simp] theorem Config.machine_rBgap : Config.machine.rBgap = 120 := rfl
@[simp] theorem Config.machine_btm : Config.machine.btm = 80 := rfl
@[simp] theorem Config.machine_rSgap : Config.machine.rSgap = 120 := rfl
@[simp] theorem Config.machine_stm : Config.machine.stm = 40 := rfl
@[simp] theorem Config.machine_wThreshUs : Config.machine.wThreshUs = 400 := rfl

/-- `WBGAP_L` leaves room for the rest of the preamble (92_eei_decisions.md P1). -/
theorem Config.withOpen_wPreLen (p : OpenParams) : (Config.withOpen p).wPreLen < 2 ^ 32 := by
  have := p.wbgapL.isLt
  simp only [Config.wPreLen, Config.withOpen]
  omega

/-- A configuration with the defaults is well formed for every value of the open parameters. -/
theorem Config.withOpen_wellFormed (p : OpenParams) : (Config.withOpen p).WellFormed where
  btm_even := show 80 % 2 = 0 by decide
  stm_even := show 40 % 2 = 0 by decide
  cks_two := rfl
  len_inside := show 18 + 1 < 128 by decide
  hdr_count := show 8 * 128 < 2 ^ 32 by decide
  rpre_count := show 120 + 80 + 1 < 2 ^ 32 by decide
  rbpre_count := show 1 + 120 + 40 + 1 < 2 ^ 32 by decide
  wpre_count := Config.withOpen_wPreLen p
  skip4_count := p.wSkip4.isLt
  skip10_count n := (p.wSkip10 n).isLt
  body_pos := Nat.le_add_left 1 _
  body_bound := p.bodyMaxPred.isLt

theorem Config.machine_wellFormed : Config.machine.WellFormed :=
  Config.withOpen_wellFormed Config.openParams

end Sys2Proof
end

