-- ==== Sys2Proof/Laws/Exec.lean ====
section
/-!
SUPPORT. Each arm of the dispatch as the shared operation its meaning is.
-/
namespace Sys2Proof.Machine

variable (s : State)

theorem exec_readBit : exec .readBit s = readBit Config.machine s := rfl
theorem exec_writeBit (b : Bit) : exec (.writeBit b) s = writeBit Config.machine b s := rfl
theorem exec_reset : exec .reset s = .next s.resetAll := rfl
theorem exec_preload : exec .preload s = preload Config.machine s := rfl
theorem exec_setMotor (b : Bit) : exec (.setMotor b) s = .next (s.setGates b s.sense) := rfl
theorem exec_setSense (b : Bit) : exec (.setSense b) s = .next (s.setGates s.motor b) := rfl
theorem exec_senseToggle : exec .senseToggle s = .next (s.setGates (!s.motor) (!s.sense)) := rfl
theorem exec_rIdle : exec .rIdle s = readFromIdle Config.machine s := rfl
theorem exec_rPreamble : exec .rPreamble s = readFromPreamble Config.machine s := rfl
theorem exec_rHeader : exec .rHeader s = readFromHeader Config.machine s := rfl
theorem exec_rHdrCks : exec .rHdrCks s = readFromHdrCks Config.machine s := rfl
theorem exec_rBodyPre : exec .rBodyPre s = readFromBodyPre Config.machine s := rfl
theorem exec_rBody : exec .rBody s = readFromBody Config.machine s := rfl
theorem exec_rBodyCks : exec .rBodyCks s = readFromBodyCks Config.machine s := rfl
theorem exec_rStop : exec .rStop s = .next (rStop s) := rfl
theorem exec_wIdle : exec .wIdle s = writeFromIdle Config.machine (pulseInHand Config.machine s) s := rfl
theorem exec_wPreamble : exec .wPreamble s = writeFromPreamble Config.machine (pulseInHand Config.machine s) s := rfl
theorem exec_wHeader : exec .wHeader s = writeFromHeader Config.machine (pulseInHand Config.machine s) s := rfl
theorem exec_wHdrCks : exec .wHdrCks s = writeFromHdrCks Config.machine (pulseInHand Config.machine s) s := rfl
theorem exec_wSkip4 : exec .wSkip4 s = writeFromSkip4 Config.machine (pulseInHand Config.machine s) s := rfl
theorem exec_wBody : exec .wBody s = writeFromBody Config.machine (pulseInHand Config.machine s) s := rfl
theorem exec_wBodyCks : exec .wBodyCks s = writeFromBodyCks Config.machine (pulseInHand Config.machine s) s := rfl
theorem exec_wSkip10 : exec .wSkip10 s = writeFromSkip10 Config.machine (pulseInHand Config.machine s) s := rfl
theorem exec_wStop : exec .wStop s = writeFromStop Config.machine (pulseInHand Config.machine s) s := rfl

/-- Every reserved or unused read code (30_encoding.md R105). -/
theorem exec_rUnknown {i : Instr} (hi : i ∈ [Instr.rUnknown4, .rUnknown5, .rUnknown6, .rUnknown10,
    .rUnknown11, .rUnknown12, .rUnknown14, .rUnknown15]) : exec i s = .next (rUnknown s) := by
  simp only [List.mem_cons, List.not_mem_nil, or_false] at hi
  rcases hi with rfl | rfl | rfl | rfl | rfl | rfl | rfl | rfl <;> rfl

/-- Every unused write code (30_encoding.md R105). -/
theorem exec_wUnknown {i : Instr} (hi : i ∈ [Instr.wUnknown5, .wUnknown6, .wUnknown7, .wUnknown11,
    .wUnknown12, .wUnknown14, .wUnknown15]) : exec i s = .next (wUnknown s) := by
  simp only [List.mem_cons, List.not_mem_nil, or_false] at hi
  rcases hi with rfl | rfl | rfl | rfl | rfl | rfl | rfl <;> rfl

end Sys2Proof.Machine
end

