-- ==== Sys2Proof/Laws/Memory.lean ====
section
/-!
SUPPORT. The laws of a buffer: reading back, what a write leaves alone, and the canonical form, which
every operation keeps and in which equal contents are equal data.
-/
namespace Sys2Proof.Machine

@[simp] theorem Memory.read_nil (i : Nat) : Memory.read [] i = Memory.blank := rfl

/-- A read looks at the first cell, then at the rest. -/
theorem Memory.read_cell (k : Nat) (b : Byte) (rest : Memory) (i : Nat) :
    Memory.read ((k, b) :: rest) i = if i = k then b else rest.read i := rfl

theorem Memory.read_cons (i : Nat) (v : Byte) (m : Memory) (j : Nat)
    (h : ∀ k, i = k → Memory.read m k = Memory.blank ∨ v ≠ Memory.blank) :
    (Memory.cons i v m).read j = if j = i then v else m.read j := by
  unfold Memory.cons
  by_cases hv : v = Memory.blank
  · rw [if_pos hv]
    by_cases hj : j = i
    · rw [if_pos hj]
      rcases h j hj.symm with hb | hb
      · rw [hb, hv]
      · exact absurd hv hb
    · rw [if_neg hj]
  · rw [if_neg hv, Memory.read_cell]

/-- An index below every listed one reads as blank. -/
theorem Memory.read_below {lo : Nat} {m : Memory} (h : m.wfFrom lo = true) {i : Nat} (hi : i < lo) :
    m.read i = Memory.blank := by
  induction m generalizing lo with
  | nil => rfl
  | cons c rest ih =>
    obtain ⟨k, b⟩ := c
    simp only [Memory.wfFrom, Bool.and_eq_true, decide_eq_true_eq] at h
    have hk : i ≠ k := by omega
    rw [Memory.read_cell, if_neg hk]
    exact ih h.2 (by omega)

theorem Memory.wfFrom_mono {lo lo' : Nat} {m : Memory} (h : m.wfFrom lo = true) (hl : lo' ≤ lo) :
    m.wfFrom lo' = true := by
  cases m with
  | nil => rfl
  | cons c rest =>
    obtain ⟨k, b⟩ := c
    simp only [Memory.wfFrom, Bool.and_eq_true, decide_eq_true_eq] at h ⊢
    exact ⟨⟨by omega, h.1.2⟩, h.2⟩

theorem Memory.cons_wfFrom {lo i : Nat} {v : Byte} {m : Memory} (hi : lo ≤ i)
    (hm : m.wfFrom (i + 1) = true) : (Memory.cons i v m).wfFrom lo = true := by
  unfold Memory.cons
  split
  · exact Memory.wfFrom_mono hm (by omega)
  · simp only [Memory.wfFrom, Bool.and_eq_true, decide_eq_true_eq]
    exact ⟨⟨hi, by assumption⟩, hm⟩

theorem Memory.write_wfFrom {lo : Nat} {m : Memory} (h : m.wfFrom lo = true) {i : Nat} (hi : lo ≤ i)
    (v : Byte) : (m.write i v).wfFrom lo = true := by
  induction m generalizing lo with
  | nil => exact Memory.cons_wfFrom hi rfl
  | cons c rest ih =>
    obtain ⟨k, b⟩ := c
    simp only [Memory.wfFrom, Bool.and_eq_true, decide_eq_true_eq] at h
    simp only [Memory.write]
    split
    · apply Memory.cons_wfFrom hi
      simp only [Memory.wfFrom, Bool.and_eq_true, decide_eq_true_eq]
      exact ⟨⟨by omega, h.1.2⟩, h.2⟩
    · split
      · subst i
        exact Memory.cons_wfFrom hi h.2
      · simp only [Memory.wfFrom, Bool.and_eq_true, decide_eq_true_eq]
        exact ⟨h.1, ih h.2 (by omega)⟩

/-- A write keeps the canonical form. -/
theorem Memory.write_wf {m : Memory} (h : m.wf = true) (i : Nat) (v : Byte) :
    (m.write i v).wf = true :=
  Memory.write_wfFrom h (Nat.zero_le i) v

/-- A read after a write: the byte written at its index, the old byte elsewhere. -/
theorem Memory.read_write_from {lo : Nat} {m : Memory} (h : m.wfFrom lo = true) (i : Nat) (v : Byte)
    (j : Nat) : (m.write i v).read j = if j = i then v else m.read j := by
  induction m generalizing lo with
  | nil =>
    simp only [Memory.write]
    exact Memory.read_cons i v [] j fun _ _ => .inl rfl
  | cons c rest ih =>
    obtain ⟨k, b⟩ := c
    have hall := h
    simp only [Memory.wfFrom, Bool.and_eq_true, decide_eq_true_eq] at h
    simp only [Memory.write]
    split
    · rename_i hik
      apply Memory.read_cons
      intro k' hk'
      subst hk'
      left
      rw [Memory.read_cell, if_neg (by omega)]
      exact Memory.read_below h.2 (by omega)
    · split
      · rename_i hik
        subst i
        rw [Memory.read_cons]
        · by_cases hj : j = k
          · simp [hj]
          · rw [if_neg hj, if_neg hj, Memory.read_cell, if_neg hj]
        · intro k' hk'
          subst hk'
          exact .inl (Memory.read_below h.2 (by omega))
      · rename_i h1 h2
        rw [Memory.read_cell, Memory.read_cell, ih h.2]
        by_cases hj : j = k
        · rw [if_pos hj, if_pos hj, if_neg (by omega)]
        · rw [if_neg hj, if_neg hj]

theorem Memory.read_write_same {m : Memory} (h : m.wf = true) (i : Nat) (v : Byte) :
    (m.write i v).read i = v := by
  rw [Memory.read_write_from h, if_pos rfl]

/-- A write leaves every other index alone, whatever the list. -/
theorem Memory.read_write_other {m : Memory} {i j : Nat} (v : Byte) (hj : j ≠ i) :
    (m.write i v).read j = m.read j := by
  induction m with
  | nil =>
    simp only [Memory.write, Memory.cons]
    split
    · rfl
    · rw [Memory.read_cell, if_neg hj]
  | cons c rest ih =>
    obtain ⟨k, b⟩ := c
    simp only [Memory.write, Memory.cons]
    by_cases hk : j = k
    · subst hk
      rw [if_neg (Ne.symm hj)]
      split
      · split
        · rfl
        · rw [Memory.read_cell, if_neg hj]
      · rw [Memory.read_cell, Memory.read_cell, if_pos rfl, if_pos rfl]
    · split
      · split
        · rfl
        · rw [Memory.read_cell, if_neg hj]
      · split
        · split
          · rw [Memory.read_cell, if_neg hk]
          · rw [Memory.read_cell, if_neg hj, Memory.read_cell, if_neg hk]
        · rw [Memory.read_cell, Memory.read_cell, if_neg hk, if_neg hk, ih]

theorem Memory.cons_inside {m : Memory} {size i : Nat} {v : Byte} (hi : i < size)
    (hm : m.inside size = true) : (Memory.cons i v m).inside size = true := by
  unfold Memory.cons
  split
  · exact hm
  · simp only [Memory.inside, List.all_cons, Bool.and_eq_true, decide_eq_true_eq]
    exact ⟨hi, hm⟩

/-- A write within the buffer keeps it within its size. -/
theorem Memory.write_inside {m : Memory} {size i : Nat} (v : Byte) (hi : i < size)
    (hm : m.inside size = true) : (m.write i v).inside size = true := by
  induction m with
  | nil => exact Memory.cons_inside hi hm
  | cons c rest ih =>
    obtain ⟨k, b⟩ := c
    have hm' := hm
    simp only [Memory.inside, List.all_cons, Bool.and_eq_true, decide_eq_true_eq] at hm'
    simp only [Memory.write]
    split
    · exact Memory.cons_inside hi hm
    · split
      · exact Memory.cons_inside hi hm'.2
      · simp only [Memory.inside, List.all_cons, Bool.and_eq_true, decide_eq_true_eq]
        exact ⟨hm'.1, ih hm'.2⟩

theorem Memory.writeBlock_wf {m : Memory} (h : m.wf = true) (base : Nat) (vs : List Byte) :
    (m.writeBlock base vs).wf = true := by
  induction vs generalizing m base with
  | nil => exact h
  | cons v vs ih => exact ih (Memory.write_wf h base v) (base + 1)

theorem Memory.writeBlock_inside {m : Memory} {size base : Nat} {vs : List Byte}
    (hb : base + vs.length ≤ size) (hm : m.inside size = true) :
    (m.writeBlock base vs).inside size = true := by
  induction vs generalizing m base with
  | nil => exact hm
  | cons v vs ih =>
    simp only [List.length_cons] at hb
    exact ih (by omega) (Memory.write_inside v (by omega) hm)

/-- A block write leaves every index outside the block alone. -/
theorem Memory.read_writeBlock_outside {m : Memory} {base i : Nat} {vs : List Byte}
    (hi : i < base ∨ base + vs.length ≤ i) : (m.writeBlock base vs).read i = m.read i := by
  induction vs generalizing m base with
  | nil => rfl
  | cons v vs ih =>
    simp only [List.length_cons] at hi
    rw [Memory.writeBlock, ih (by omega), Memory.read_write_other v (by omega)]

/-- A read within a written block. -/
theorem Memory.read_writeBlock_inside {m : Memory} (h : m.wf = true) {base j : Nat} {vs : List Byte}
    (hj : j < vs.length) : (m.writeBlock base vs).read (base + j) = vs.getD j 0#8 := by
  induction vs generalizing m base j with
  | nil => simp at hj
  | cons v vs ih =>
    rw [Memory.writeBlock]
    cases j with
    | zero =>
      rw [Memory.read_writeBlock_outside (by omega)]
      exact Memory.read_write_same h base v
    | succ j =>
      have := ih (m := m.write base v) (Memory.write_wf h base v) (base := base + 1) (j := j)
        (by simpa using hj)
      rw [show base + (j + 1) = base + 1 + j by omega, this]
      simp

@[simp] theorem Memory.bytes_length (m : Memory) (n : Nat) : (m.bytes n).length = n := by
  simp [Memory.bytes]

theorem Memory.bytes_getD {m : Memory} {n i : Nat} (hi : i < n) (d : Byte) :
    (m.bytes n).getD i d = m.read i := by
  simp [Memory.bytes, List.getD, hi]

/-- Two buffers with the same bytes below `n` have the same first `n` bytes. -/
theorem Memory.bytes_congr {m m' : Memory} {n : Nat} (h : ∀ i, i < n → m.read i = m'.read i) :
    m.bytes n = m'.bytes n := by
  simp only [Memory.bytes]
  exact List.map_congr_left fun i hi => h i (List.mem_range.mp hi)

/-- In the canonical form equal contents are equal data. -/
theorem Memory.eq_of_read_eq {lo : Nat} {m m' : Memory} (h : m.wfFrom lo = true)
    (h' : m'.wfFrom lo = true) (hr : ∀ i, m.read i = m'.read i) : m = m' := by
  induction m generalizing lo m' with
  | nil =>
    cases m' with
    | nil => rfl
    | cons c rest =>
      obtain ⟨k, b⟩ := c
      simp only [Memory.wfFrom, Bool.and_eq_true, decide_eq_true_eq] at h'
      have := hr k
      rw [Memory.read_cell, if_pos rfl] at this
      exact absurd this.symm h'.1.2
  | cons c rest ih =>
    obtain ⟨k, b⟩ := c
    have hall := h
    simp only [Memory.wfFrom, Bool.and_eq_true, decide_eq_true_eq] at h
    cases m' with
    | nil =>
      have := hr k
      rw [Memory.read_cell, if_pos rfl] at this
      exact absurd this h.1.2
    | cons c' rest' =>
      obtain ⟨k', b'⟩ := c'
      have hall' := h'
      simp only [Memory.wfFrom, Bool.and_eq_true, decide_eq_true_eq] at h'
      have hk : k = k' := by
        rcases Nat.lt_trichotomy k k' with hlt | heq | hgt
        · have := hr k
          rw [Memory.read_cell, if_pos rfl, Memory.read_cell, if_neg (by omega),
            Memory.read_below h'.2 (by omega)] at this
          exact absurd this h.1.2
        · exact heq
        · have := hr k'
          rw [Memory.read_cell, if_neg (by omega), Memory.read_below h.2 (by omega), Memory.read_cell,
            if_pos rfl] at this
          exact absurd this.symm h'.1.2
      subst hk
      have hb : b = b' := by
        have := hr k
        rwa [Memory.read_cell, if_pos rfl, Memory.read_cell, if_pos rfl] at this
      subst hb
      congr 1
      apply ih h.2 h'.2
      intro i
      by_cases hi : i = k
      · subst hi
        rw [Memory.read_below h.2 (by omega), Memory.read_below h'.2 (by omega)]
      · have := hr i
        rwa [Memory.read_cell, if_neg hi, Memory.read_cell, if_neg hi] at this

end Sys2Proof.Machine
end

