-- ==== Sys2Proof/Laws/State.lean ====
section
/-!
SUPPORT. What each update of the state writes and what it leaves, one lemma per field per update.
-/
namespace Sys2Proof.Machine

variable (s : State)

@[simp] theorem State.setRd_rd (rd : ReadCursor) : (s.setRd rd).rd = rd := rfl
@[simp] theorem State.setRd_wr (rd : ReadCursor) : (s.setRd rd).wr = s.wr := rfl
@[simp] theorem State.setRd_motor (rd : ReadCursor) : (s.setRd rd).motor = s.motor := rfl
@[simp] theorem State.setRd_sense (rd : ReadCursor) : (s.setRd rd).sense = s.sense := rfl
@[simp] theorem State.setRd_tcount (rd : ReadCursor) : (s.setRd rd).tcount = s.tcount := rfl
@[simp] theorem State.setRd_header (rd : ReadCursor) : (s.setRd rd).header = s.header := rfl
@[simp] theorem State.setRd_body (rd : ReadCursor) : (s.setRd rd).body = s.body := rfl
@[simp] theorem State.setRd_events (rd : ReadCursor) : (s.setRd rd).events = s.events := rfl
@[simp] theorem State.setRd_rdData (rd : ReadCursor) : (s.setRd rd).rdData = s.rdData := rfl
@[simp] theorem State.setRd_port (rd : ReadCursor) : (s.setRd rd).port = s.port := rfl
@[simp] theorem State.setRd_queue (rd : ReadCursor) : (s.setRd rd).queue = s.queue := rfl

@[simp] theorem State.setWr_rd (wr : WriteCursor) : (s.setWr wr).rd = s.rd := rfl
@[simp] theorem State.setWr_wr (wr : WriteCursor) : (s.setWr wr).wr = wr := rfl
@[simp] theorem State.setWr_motor (wr : WriteCursor) : (s.setWr wr).motor = s.motor := rfl
@[simp] theorem State.setWr_sense (wr : WriteCursor) : (s.setWr wr).sense = s.sense := rfl
@[simp] theorem State.setWr_tcount (wr : WriteCursor) : (s.setWr wr).tcount = s.tcount := rfl
@[simp] theorem State.setWr_header (wr : WriteCursor) : (s.setWr wr).header = s.header := rfl
@[simp] theorem State.setWr_body (wr : WriteCursor) : (s.setWr wr).body = s.body := rfl
@[simp] theorem State.setWr_events (wr : WriteCursor) : (s.setWr wr).events = s.events := rfl
@[simp] theorem State.setWr_rdData (wr : WriteCursor) : (s.setWr wr).rdData = s.rdData := rfl
@[simp] theorem State.setWr_port (wr : WriteCursor) : (s.setWr wr).port = s.port := rfl
@[simp] theorem State.setWr_queue (wr : WriteCursor) : (s.setWr wr).queue = s.queue := rfl

@[simp] theorem State.setGates_rd (m n : Bit) : (s.setGates m n).rd = s.rd := rfl
@[simp] theorem State.setGates_wr (m n : Bit) : (s.setGates m n).wr = s.wr := rfl
@[simp] theorem State.setGates_motor (m n : Bit) : (s.setGates m n).motor = m := rfl
@[simp] theorem State.setGates_sense (m n : Bit) : (s.setGates m n).sense = n := rfl
@[simp] theorem State.setGates_tcount (m n : Bit) : (s.setGates m n).tcount = s.tcount := rfl
@[simp] theorem State.setGates_header (m n : Bit) : (s.setGates m n).header = s.header := rfl
@[simp] theorem State.setGates_body (m n : Bit) : (s.setGates m n).body = s.body := rfl
@[simp] theorem State.setGates_events (m n : Bit) : (s.setGates m n).events = s.events := rfl
@[simp] theorem State.setGates_rdData (m n : Bit) : (s.setGates m n).rdData = s.rdData := rfl
@[simp] theorem State.setGates_port (m n : Bit) : (s.setGates m n).port = s.port := rfl
@[simp] theorem State.setGates_queue (m n : Bit) : (s.setGates m n).queue = s.queue := rfl

@[simp] theorem State.setTcount_rd (n : Half) : (s.setTcount n).rd = s.rd := rfl
@[simp] theorem State.setTcount_wr (n : Half) : (s.setTcount n).wr = s.wr := rfl
@[simp] theorem State.setTcount_motor (n : Half) : (s.setTcount n).motor = s.motor := rfl
@[simp] theorem State.setTcount_sense (n : Half) : (s.setTcount n).sense = s.sense := rfl
@[simp] theorem State.setTcount_tcount (n : Half) : (s.setTcount n).tcount = n := rfl
@[simp] theorem State.setTcount_header (n : Half) : (s.setTcount n).header = s.header := rfl
@[simp] theorem State.setTcount_body (n : Half) : (s.setTcount n).body = s.body := rfl
@[simp] theorem State.setTcount_events (n : Half) : (s.setTcount n).events = s.events := rfl
@[simp] theorem State.setTcount_rdData (n : Half) : (s.setTcount n).rdData = s.rdData := rfl
@[simp] theorem State.setTcount_port (n : Half) : (s.setTcount n).port = s.port := rfl
@[simp] theorem State.setTcount_queue (n : Half) : (s.setTcount n).queue = s.queue := rfl

@[simp] theorem State.setHeader_rd (m : Memory) : (s.setHeader m).rd = s.rd := rfl
@[simp] theorem State.setHeader_wr (m : Memory) : (s.setHeader m).wr = s.wr := rfl
@[simp] theorem State.setHeader_motor (m : Memory) : (s.setHeader m).motor = s.motor := rfl
@[simp] theorem State.setHeader_sense (m : Memory) : (s.setHeader m).sense = s.sense := rfl
@[simp] theorem State.setHeader_tcount (m : Memory) : (s.setHeader m).tcount = s.tcount := rfl
@[simp] theorem State.setHeader_header (m : Memory) : (s.setHeader m).header = m := rfl
@[simp] theorem State.setHeader_body (m : Memory) : (s.setHeader m).body = s.body := rfl
@[simp] theorem State.setHeader_events (m : Memory) : (s.setHeader m).events = s.events := rfl
@[simp] theorem State.setHeader_rdData (m : Memory) : (s.setHeader m).rdData = s.rdData := rfl
@[simp] theorem State.setHeader_port (m : Memory) : (s.setHeader m).port = s.port := rfl
@[simp] theorem State.setHeader_queue (m : Memory) : (s.setHeader m).queue = s.queue := rfl

@[simp] theorem State.setBody_rd (m : Memory) : (s.setBody m).rd = s.rd := rfl
@[simp] theorem State.setBody_wr (m : Memory) : (s.setBody m).wr = s.wr := rfl
@[simp] theorem State.setBody_motor (m : Memory) : (s.setBody m).motor = s.motor := rfl
@[simp] theorem State.setBody_sense (m : Memory) : (s.setBody m).sense = s.sense := rfl
@[simp] theorem State.setBody_tcount (m : Memory) : (s.setBody m).tcount = s.tcount := rfl
@[simp] theorem State.setBody_header (m : Memory) : (s.setBody m).header = s.header := rfl
@[simp] theorem State.setBody_body (m : Memory) : (s.setBody m).body = m := rfl
@[simp] theorem State.setBody_events (m : Memory) : (s.setBody m).events = s.events := rfl
@[simp] theorem State.setBody_rdData (m : Memory) : (s.setBody m).rdData = s.rdData := rfl
@[simp] theorem State.setBody_port (m : Memory) : (s.setBody m).port = s.port := rfl
@[simp] theorem State.setBody_queue (m : Memory) : (s.setBody m).queue = s.queue := rfl

@[simp] theorem State.emit_rd (e : Event) : (s.emit e).rd = s.rd := rfl
@[simp] theorem State.emit_wr (e : Event) : (s.emit e).wr = s.wr := rfl
@[simp] theorem State.emit_motor (e : Event) : (s.emit e).motor = s.motor := rfl
@[simp] theorem State.emit_sense (e : Event) : (s.emit e).sense = s.sense := rfl
@[simp] theorem State.emit_tcount (e : Event) : (s.emit e).tcount = s.tcount := rfl
@[simp] theorem State.emit_header (e : Event) : (s.emit e).header = s.header := rfl
@[simp] theorem State.emit_body (e : Event) : (s.emit e).body = s.body := rfl
@[simp] theorem State.emit_events (e : Event) : (s.emit e).events = s.events ++ [e] := rfl
@[simp] theorem State.emit_rdData (e : Event) : (s.emit e).rdData = s.rdData := rfl
@[simp] theorem State.emit_port (e : Event) : (s.emit e).port = s.port := rfl
@[simp] theorem State.emit_queue (e : Event) : (s.emit e).queue = s.queue := rfl

@[simp] theorem State.answer_rd (v : Bit) : (s.answer v).rd = s.rd := rfl
@[simp] theorem State.answer_wr (v : Bit) : (s.answer v).wr = s.wr := rfl
@[simp] theorem State.answer_motor (v : Bit) : (s.answer v).motor = s.motor := rfl
@[simp] theorem State.answer_sense (v : Bit) : (s.answer v).sense = s.sense := rfl
@[simp] theorem State.answer_tcount (v : Bit) : (s.answer v).tcount = s.tcount := rfl
@[simp] theorem State.answer_header (v : Bit) : (s.answer v).header = s.header := rfl
@[simp] theorem State.answer_body (v : Bit) : (s.answer v).body = s.body := rfl
@[simp] theorem State.answer_events (v : Bit) : (s.answer v).events = s.events := rfl
@[simp] theorem State.answer_rdData (v : Bit) : (s.answer v).rdData = some v := rfl
@[simp] theorem State.answer_port (v : Bit) : (s.answer v).port = s.port := rfl
@[simp] theorem State.answer_queue (v : Bit) : (s.answer v).queue = s.queue := rfl

@[simp] theorem State.accept_rd (p : SideInput) (q : List Input) : (s.accept p q).rd = s.rd := rfl
@[simp] theorem State.accept_wr (p : SideInput) (q : List Input) : (s.accept p q).wr = s.wr := rfl
@[simp] theorem State.accept_motor (p : SideInput) (q : List Input) : (s.accept p q).motor = s.motor := rfl
@[simp] theorem State.accept_sense (p : SideInput) (q : List Input) : (s.accept p q).sense = s.sense := rfl
@[simp] theorem State.accept_tcount (p : SideInput) (q : List Input) : (s.accept p q).tcount = s.tcount := rfl
@[simp] theorem State.accept_header (p : SideInput) (q : List Input) : (s.accept p q).header = s.header := rfl
@[simp] theorem State.accept_body (p : SideInput) (q : List Input) : (s.accept p q).body = s.body := rfl
@[simp] theorem State.accept_events (p : SideInput) (q : List Input) : (s.accept p q).events = s.events := rfl
@[simp] theorem State.accept_rdData (p : SideInput) (q : List Input) : (s.accept p q).rdData = none := rfl
@[simp] theorem State.accept_port (p : SideInput) (q : List Input) : (s.accept p q).port = p := rfl
@[simp] theorem State.accept_queue (p : SideInput) (q : List Input) : (s.accept p q).queue = q := rfl

@[simp] theorem State.atTime_rd (t : Time) : (s.atTime t).rd = s.rd := rfl
@[simp] theorem State.atTime_wr (t : Time) : (s.atTime t).wr = s.wr := rfl
@[simp] theorem State.atTime_motor (t : Time) : (s.atTime t).motor = s.motor := rfl
@[simp] theorem State.atTime_sense (t : Time) : (s.atTime t).sense = s.sense := rfl
@[simp] theorem State.atTime_tcount (t : Time) : (s.atTime t).tcount = s.tcount := rfl
@[simp] theorem State.atTime_header (t : Time) : (s.atTime t).header = s.header := rfl
@[simp] theorem State.atTime_body (t : Time) : (s.atTime t).body = s.body := rfl
@[simp] theorem State.atTime_events (t : Time) : (s.atTime t).events = s.events := rfl
@[simp] theorem State.atTime_rdData (t : Time) : (s.atTime t).rdData = s.rdData := rfl
@[simp] theorem State.atTime_port (t : Time) : (s.atTime t).port = { s.port with now := t } := rfl
@[simp] theorem State.atTime_queue (t : Time) : (s.atTime t).queue = s.queue := rfl

@[simp] theorem State.resetReadCursor_rd : (s.resetReadCursor).rd = ReadCursor.zero := rfl
@[simp] theorem State.resetReadCursor_wr : (s.resetReadCursor).wr = s.wr := rfl
@[simp] theorem State.resetReadCursor_motor : (s.resetReadCursor).motor = s.motor := rfl
@[simp] theorem State.resetReadCursor_sense : (s.resetReadCursor).sense = s.sense := rfl
@[simp] theorem State.resetReadCursor_tcount : (s.resetReadCursor).tcount = s.tcount := rfl
@[simp] theorem State.resetReadCursor_header : (s.resetReadCursor).header = s.header := rfl
@[simp] theorem State.resetReadCursor_body : (s.resetReadCursor).body = s.body := rfl
@[simp] theorem State.resetReadCursor_events : (s.resetReadCursor).events = s.events := rfl
@[simp] theorem State.resetReadCursor_rdData : (s.resetReadCursor).rdData = s.rdData := rfl
@[simp] theorem State.resetReadCursor_port : (s.resetReadCursor).port = s.port := rfl
@[simp] theorem State.resetReadCursor_queue : (s.resetReadCursor).queue = s.queue := rfl

@[simp] theorem State.resetWriteCursor_rd : (s.resetWriteCursor).rd = s.rd := rfl
@[simp] theorem State.resetWriteCursor_wr : (s.resetWriteCursor).wr = WriteCursor.zero := rfl
@[simp] theorem State.resetWriteCursor_motor : (s.resetWriteCursor).motor = s.motor := rfl
@[simp] theorem State.resetWriteCursor_sense : (s.resetWriteCursor).sense = s.sense := rfl
@[simp] theorem State.resetWriteCursor_tcount : (s.resetWriteCursor).tcount = s.tcount := rfl
@[simp] theorem State.resetWriteCursor_header : (s.resetWriteCursor).header = s.header := rfl
@[simp] theorem State.resetWriteCursor_body : (s.resetWriteCursor).body = s.body := rfl
@[simp] theorem State.resetWriteCursor_events : (s.resetWriteCursor).events = s.events := rfl
@[simp] theorem State.resetWriteCursor_rdData : (s.resetWriteCursor).rdData = s.rdData := rfl
@[simp] theorem State.resetWriteCursor_port : (s.resetWriteCursor).port = s.port := rfl
@[simp] theorem State.resetWriteCursor_queue : (s.resetWriteCursor).queue = s.queue := rfl

@[simp] theorem State.resetAll_rd : (s.resetAll).rd = ReadCursor.zero := rfl
@[simp] theorem State.resetAll_wr : (s.resetAll).wr = WriteCursor.zero := rfl
@[simp] theorem State.resetAll_motor : (s.resetAll).motor = false := rfl
@[simp] theorem State.resetAll_sense : (s.resetAll).sense = false := rfl
@[simp] theorem State.resetAll_tcount : (s.resetAll).tcount = s.tcount := rfl
@[simp] theorem State.resetAll_header : (s.resetAll).header = s.header := rfl
@[simp] theorem State.resetAll_body : (s.resetAll).body = s.body := rfl
@[simp] theorem State.resetAll_events : (s.resetAll).events = s.events := rfl
@[simp] theorem State.resetAll_rdData : (s.resetAll).rdData = s.rdData := rfl
@[simp] theorem State.resetAll_port : (s.resetAll).port = s.port := rfl
@[simp] theorem State.resetAll_queue : (s.resetAll).queue = s.queue := rfl

@[simp] theorem State.log_rd (k : LogCode) (a b : Count) : (s.log k a b).rd = s.rd := rfl
@[simp] theorem State.log_wr (k : LogCode) (a b : Count) : (s.log k a b).wr = s.wr := rfl
@[simp] theorem State.log_motor (k : LogCode) (a b : Count) : (s.log k a b).motor = s.motor := rfl
@[simp] theorem State.log_sense (k : LogCode) (a b : Count) : (s.log k a b).sense = s.sense := rfl
@[simp] theorem State.log_tcount (k : LogCode) (a b : Count) : (s.log k a b).tcount = s.tcount := rfl
@[simp] theorem State.log_header (k : LogCode) (a b : Count) : (s.log k a b).header = s.header := rfl
@[simp] theorem State.log_body (k : LogCode) (a b : Count) : (s.log k a b).body = s.body := rfl
@[simp] theorem State.log_events (k : LogCode) (a b : Count) : (s.log k a b).events = s.events ++ [.log k a b] := rfl
@[simp] theorem State.log_rdData (k : LogCode) (a b : Count) : (s.log k a b).rdData = s.rdData := rfl
@[simp] theorem State.log_port (k : LogCode) (a b : Count) : (s.log k a b).port = s.port := rfl
@[simp] theorem State.log_queue (k : LogCode) (a b : Count) : (s.log k a b).queue = s.queue := rfl

@[simp] theorem State.persist_rd (c : Config) : (s.persist c).rd = s.rd := rfl
@[simp] theorem State.persist_wr (c : Config) : (s.persist c).wr = s.wr := rfl
@[simp] theorem State.persist_motor (c : Config) : (s.persist c).motor = s.motor := rfl
@[simp] theorem State.persist_sense (c : Config) : (s.persist c).sense = s.sense := rfl
@[simp] theorem State.persist_tcount (c : Config) : (s.persist c).tcount = s.tcount := rfl
@[simp] theorem State.persist_header (c : Config) : (s.persist c).header = s.header := rfl
@[simp] theorem State.persist_body (c : Config) : (s.persist c).body = s.body := rfl
@[simp] theorem State.persist_events (c : Config) : (s.persist c).events = s.events ++ [.persist (s.header.bytes c.hdrBytes) (s.body.bytes s.wr.wblen.toNat) s.wr.wblen] := rfl
@[simp] theorem State.persist_rdData (c : Config) : (s.persist c).rdData = s.rdData := rfl
@[simp] theorem State.persist_port (c : Config) : (s.persist c).port = s.port := rfl
@[simp] theorem State.persist_queue (c : Config) : (s.persist c).queue = s.queue := rfl

@[simp] theorem State.violateRead_rd (k : LogCode) (a b : Count) : (s.violateRead k a b).rd = ReadCursor.zero := rfl
@[simp] theorem State.violateRead_wr (k : LogCode) (a b : Count) : (s.violateRead k a b).wr = s.wr := rfl
@[simp] theorem State.violateRead_motor (k : LogCode) (a b : Count) : (s.violateRead k a b).motor = s.motor := rfl
@[simp] theorem State.violateRead_sense (k : LogCode) (a b : Count) : (s.violateRead k a b).sense = s.sense := rfl
@[simp] theorem State.violateRead_tcount (k : LogCode) (a b : Count) : (s.violateRead k a b).tcount = s.tcount := rfl
@[simp] theorem State.violateRead_header (k : LogCode) (a b : Count) : (s.violateRead k a b).header = s.header := rfl
@[simp] theorem State.violateRead_body (k : LogCode) (a b : Count) : (s.violateRead k a b).body = s.body := rfl
@[simp] theorem State.violateRead_events (k : LogCode) (a b : Count) : (s.violateRead k a b).events = s.events ++ [.log k a b] := rfl
@[simp] theorem State.violateRead_rdData (k : LogCode) (a b : Count) : (s.violateRead k a b).rdData = s.rdData := rfl
@[simp] theorem State.violateRead_port (k : LogCode) (a b : Count) : (s.violateRead k a b).port = s.port := rfl
@[simp] theorem State.violateRead_queue (k : LogCode) (a b : Count) : (s.violateRead k a b).queue = s.queue := rfl

@[simp] theorem State.violateWrite_rd (k : LogCode) (a b : Count) : (s.violateWrite k a b).rd = s.rd := rfl
@[simp] theorem State.violateWrite_wr (k : LogCode) (a b : Count) : (s.violateWrite k a b).wr = WriteCursor.zero := rfl
@[simp] theorem State.violateWrite_motor (k : LogCode) (a b : Count) : (s.violateWrite k a b).motor = s.motor := rfl
@[simp] theorem State.violateWrite_sense (k : LogCode) (a b : Count) : (s.violateWrite k a b).sense = s.sense := rfl
@[simp] theorem State.violateWrite_tcount (k : LogCode) (a b : Count) : (s.violateWrite k a b).tcount = s.tcount := rfl
@[simp] theorem State.violateWrite_header (k : LogCode) (a b : Count) : (s.violateWrite k a b).header = s.header := rfl
@[simp] theorem State.violateWrite_body (k : LogCode) (a b : Count) : (s.violateWrite k a b).body = s.body := rfl
@[simp] theorem State.violateWrite_events (k : LogCode) (a b : Count) : (s.violateWrite k a b).events = s.events ++ [.log k a b] := rfl
@[simp] theorem State.violateWrite_rdData (k : LogCode) (a b : Count) : (s.violateWrite k a b).rdData = s.rdData := rfl
@[simp] theorem State.violateWrite_port (k : LogCode) (a b : Count) : (s.violateWrite k a b).port = s.port := rfl
@[simp] theorem State.violateWrite_queue (k : LogCode) (a b : Count) : (s.violateWrite k a b).queue = s.queue := rfl

end Sys2Proof.Machine
end

