-- ==== Sys2Proof/Laws/Ops.lean ====
section
/-!
SUPPORT. What each shared operation can do, said once: a turn followed by the rest of the dispatch,
the fetch and the step, the counters and flags of a byte frame.
-/
namespace Sys2Proof.Machine

@[simp] theorem Turn.andThen_done (s : State) (k : State → Result) : (Turn.done s).andThen k = .next s :=
  rfl

@[simp] theorem Turn.andThen_again (s : State) (k : State → Result) : (Turn.again s).andThen k = k s :=
  rfl

@[simp] theorem Turn.andThen_fault (r : Fault) (k : State → Result) :
    (Turn.fault r).andThen k = .fault r :=
  rfl

/-- A dispatch answers a state where its first turn ends there, or where that turn goes on and the
rest answers it. -/
theorem Turn.andThen_next {f : Turn} {k : State → Result} {t : State} (h : f.andThen k = .next t) :
    f = .done t ∨ ∃ s, f = .again s ∧ k s = .next t := by
  cases f with
  | done s => exact .inl (by simpa using h)
  | again s => exact .inr ⟨s, rfl, h⟩
  | fault r => simp at h

/-- A dispatch has no meaning where its first turn has none, or where that turn goes on to one. -/
theorem Turn.andThen_faults {f : Turn} {k : State → Result} {r : Fault} (h : f.andThen k = .fault r) :
    f = .fault r ∨ ∃ s, f = .again s ∧ k s = .fault r := by
  cases f with
  | done s => simp at h
  | again s => exact .inr ⟨s, rfl, h⟩
  | fault r' => exact .inl (by cases h; rfl)

/-- A command word's instruction is a command. -/
theorem decodeCommand_space {cmd : Byte} {i : Instr} (h : decodeCommand cmd = some i) :
    i.space = .command := by
  simp only [decodeCommand, Option.map_eq_some_iff] at h
  obtain ⟨r, hr, rfl⟩ := h
  have hm := List.mem_of_find?_eq_some hr
  simp only [commandTable, List.mem_cons, List.not_mem_nil, or_false] at hm
  rcases hm with rfl | rfl | rfl | rfl | rfl | rfl | rfl <;> rfl

/-- Everything a step that answers a state can have done: nothing, or the oldest operation. -/
theorem step_next {s t : State} (h : step s = .next t) :
    (s.queue = [] ∧ t = s) ∨
    ∃ inp rest i, s.queue = inp :: rest ∧ decodeCommand inp.cmd = some i ∧
      exec i (s.accept inp.side rest) = .next t := by
  unfold step fetch at h
  cases hq : s.queue with
  | nil => rw [hq] at h; exact .inl ⟨rfl, by simpa using h.symm⟩
  | cons inp rest =>
    rw [hq] at h
    cases hd : decodeCommand inp.cmd with
    | none => simp [decode, hd] at h
    | some i => simp only [decode, hd] at h; exact .inr ⟨inp, rest, i, rfl, hd, h⟩

/-- A step is the oldest operation, executed. -/
theorem step_of_queue {s : State} {inp : Input} {rest : List Input} {i : Instr}
    (hq : s.queue = inp :: rest) (hd : decodeCommand inp.cmd = some i) :
    step s = exec i (s.accept inp.side rest) := by
  simp only [step, fetch, hq, decode, hd]

/-- A counter below its largest value counts up by one. -/
theorem Count.toNat_succ {n : Count} (h : n.toNat + 1 < 2 ^ 32) : (n + 1).toNat = n.toNat + 1 := by
  rw [BitVec.toNat_add]
  simp
  omega

/-- The place in a byte does not see a counter's width. -/
theorem Count.succ_mod_eight (n : Count) : (n + 1).toNat % 8 = (n.toNat + 1) % 8 := by
  rw [BitVec.toNat_add]
  simp

@[simp] theorem atSyncPulse_eq_true (n : Count) (y : Bit) :
    atSyncPulse n y = true ↔ n.toNat % 8 = 0 ∧ y = false := by
  simp [atSyncPulse]

@[simp] theorem byteComplete_eq_true (n : Count) : byteComplete n = true ↔ n.toNat % 8 = 0 := by
  simp [byteComplete]

@[simp] theorem classify_eq_short (c : Config) (dt : Time) :
    classify c dt = false ↔ dt.toNat < c.wThreshUs := by
  simp [classify]

@[simp] theorem writeInProgress_eq_true (s : State) : writeInProgress s = true ↔ s.wr.wstate ≠ 0 := by
  simp [writeInProgress]

@[simp] theorem readInProgress_eq_true (s : State) : readInProgress s = true ↔ s.rd.rstate ≠ 0 := by
  simp [readInProgress]

/-- The little-endian assembly is the number the two bytes write. -/
theorem littleEndian_eq (lo hi : Byte) : littleEndian lo hi = BitVec.ofNat 16 (lo.toNat + 256 * hi.toNat) := by
  apply BitVec.eq_of_toNat_eq
  have h1 := lo.isLt
  have h2 := hi.isLt
  have hor : lo.toNat ||| hi.toNat <<< 8 = lo.toNat + 256 * hi.toNat := by
    rw [Nat.or_comm, ← Nat.shiftLeft_add_eq_or_of_lt h1, Nat.shiftLeft_eq]
    omega
  simp only [littleEndian, BitVec.toNat_or, BitVec.toNat_shiftLeft, BitVec.toNat_setWidth,
    BitVec.toNat_ofNat]
  rw [Nat.mod_eq_of_lt (by omega : lo.toNat < 2 ^ 16), Nat.mod_eq_of_lt (by omega : hi.toNat < 2 ^ 16),
    Nat.mod_eq_of_lt (a := hi.toNat <<< 8) (by rw [Nat.shiftLeft_eq]; omega), hor]
  omega

theorem littleEndian_toNat (lo hi : Byte) : (littleEndian lo hi).toNat = lo.toNat + 256 * hi.toNat := by
  have h1 := lo.isLt
  have h2 := hi.isLt
  rw [littleEndian_eq, BitVec.toNat_ofNat]
  omega

end Sys2Proof.Machine
end

