-- ==== Sys2Proof/Laws/PerInstr.lean ====
section
/-!
SUPPORT. What is shown of every instruction as syntax, one lemma per constructor: its word is an
encoding of its own row of spec/opcode_table.json.
-/
namespace Sys2Proof.Laws

/-- A row of the opcode table: the width of the word the row numbers, and its match and mask. -/
structure TableRow where
  bits  : Nat
  mask  : Nat
  value : Nat

/-- The opcode table's row of each instruction, copied from its "match", "mask" and the width of its
"encoding" (spec/opcode_table.json); the decoder and the encoder do not use it. -/
def tableRow : Instr → TableRow
  | .readBit => ⟨8, 0xFF, 0x10⟩
  | .writeBit _ => ⟨8, 0xFE, 0x20⟩
  | .reset => ⟨8, 0xFF, 0x30⟩
  | .preload => ⟨8, 0xFF, 0x40⟩
  | .setMotor _ => ⟨8, 0xFE, 0x50⟩
  | .setSense _ => ⟨8, 0xFE, 0x60⟩
  | .senseToggle => ⟨8, 0xFF, 0x70⟩
  | .rIdle => ⟨4, 0xF, 0x0⟩
  | .rPreamble => ⟨4, 0xF, 0x1⟩
  | .rHeader => ⟨4, 0xF, 0x2⟩
  | .rHdrCks => ⟨4, 0xF, 0x3⟩
  | .rUnknown4 => ⟨4, 0xF, 0x4⟩
  | .rUnknown5 => ⟨4, 0xF, 0x5⟩
  | .rUnknown6 => ⟨4, 0xF, 0x6⟩
  | .rBodyPre => ⟨4, 0xF, 0x7⟩
  | .rBody => ⟨4, 0xF, 0x8⟩
  | .rBodyCks => ⟨4, 0xF, 0x9⟩
  | .rUnknown10 => ⟨4, 0xF, 0xA⟩
  | .rUnknown11 => ⟨4, 0xF, 0xB⟩
  | .rUnknown12 => ⟨4, 0xF, 0xC⟩
  | .rStop => ⟨4, 0xF, 0xD⟩
  | .rUnknown14 => ⟨4, 0xF, 0xE⟩
  | .rUnknown15 => ⟨4, 0xF, 0xF⟩
  | .wIdle => ⟨4, 0xF, 0x0⟩
  | .wPreamble => ⟨4, 0xF, 0x1⟩
  | .wHeader => ⟨4, 0xF, 0x2⟩
  | .wHdrCks => ⟨4, 0xF, 0x3⟩
  | .wSkip4 => ⟨4, 0xF, 0x4⟩
  | .wUnknown5 => ⟨4, 0xF, 0x5⟩
  | .wUnknown6 => ⟨4, 0xF, 0x6⟩
  | .wUnknown7 => ⟨4, 0xF, 0x7⟩
  | .wBody => ⟨4, 0xF, 0x8⟩
  | .wBodyCks => ⟨4, 0xF, 0x9⟩
  | .wSkip10 => ⟨4, 0xF, 0xA⟩
  | .wUnknown11 => ⟨4, 0xF, 0xB⟩
  | .wUnknown12 => ⟨4, 0xF, 0xC⟩
  | .wStop => ⟨4, 0xF, 0xD⟩
  | .wUnknown14 => ⟨4, 0xF, 0xE⟩
  | .wUnknown15 => ⟨4, 0xF, 0xF⟩

/-- The instruction's word carries its row's fixed bits and no bit above the row's width. -/
def TableWord.Statement (i : Instr) : Prop :=
  (encodeByte i).toNat &&& (tableRow i).mask = (tableRow i).value ∧
    (encodeByte i).toNat < 2 ^ (tableRow i).bits

theorem TableWord.readBit : TableWord.Statement .readBit := ⟨rfl, by decide⟩
theorem TableWord.writeBit (b : Bit) : TableWord.Statement (.writeBit b) := by cases b <;> exact ⟨rfl, by decide⟩
theorem TableWord.reset : TableWord.Statement .reset := ⟨rfl, by decide⟩
theorem TableWord.preload : TableWord.Statement .preload := ⟨rfl, by decide⟩
theorem TableWord.setMotor (b : Bit) : TableWord.Statement (.setMotor b) := by cases b <;> exact ⟨rfl, by decide⟩
theorem TableWord.setSense (b : Bit) : TableWord.Statement (.setSense b) := by cases b <;> exact ⟨rfl, by decide⟩
theorem TableWord.senseToggle : TableWord.Statement .senseToggle := ⟨rfl, by decide⟩
theorem TableWord.rIdle : TableWord.Statement .rIdle := ⟨rfl, by decide⟩
theorem TableWord.rPreamble : TableWord.Statement .rPreamble := ⟨rfl, by decide⟩
theorem TableWord.rHeader : TableWord.Statement .rHeader := ⟨rfl, by decide⟩
theorem TableWord.rHdrCks : TableWord.Statement .rHdrCks := ⟨rfl, by decide⟩
theorem TableWord.rUnknown4 : TableWord.Statement .rUnknown4 := ⟨rfl, by decide⟩
theorem TableWord.rUnknown5 : TableWord.Statement .rUnknown5 := ⟨rfl, by decide⟩
theorem TableWord.rUnknown6 : TableWord.Statement .rUnknown6 := ⟨rfl, by decide⟩
theorem TableWord.rBodyPre : TableWord.Statement .rBodyPre := ⟨rfl, by decide⟩
theorem TableWord.rBody : TableWord.Statement .rBody := ⟨rfl, by decide⟩
theorem TableWord.rBodyCks : TableWord.Statement .rBodyCks := ⟨rfl, by decide⟩
theorem TableWord.rUnknown10 : TableWord.Statement .rUnknown10 := ⟨rfl, by decide⟩
theorem TableWord.rUnknown11 : TableWord.Statement .rUnknown11 := ⟨rfl, by decide⟩
theorem TableWord.rUnknown12 : TableWord.Statement .rUnknown12 := ⟨rfl, by decide⟩
theorem TableWord.rStop : TableWord.Statement .rStop := ⟨rfl, by decide⟩
theorem TableWord.rUnknown14 : TableWord.Statement .rUnknown14 := ⟨rfl, by decide⟩
theorem TableWord.rUnknown15 : TableWord.Statement .rUnknown15 := ⟨rfl, by decide⟩
theorem TableWord.wIdle : TableWord.Statement .wIdle := ⟨rfl, by decide⟩
theorem TableWord.wPreamble : TableWord.Statement .wPreamble := ⟨rfl, by decide⟩
theorem TableWord.wHeader : TableWord.Statement .wHeader := ⟨rfl, by decide⟩
theorem TableWord.wHdrCks : TableWord.Statement .wHdrCks := ⟨rfl, by decide⟩
theorem TableWord.wSkip4 : TableWord.Statement .wSkip4 := ⟨rfl, by decide⟩
theorem TableWord.wUnknown5 : TableWord.Statement .wUnknown5 := ⟨rfl, by decide⟩
theorem TableWord.wUnknown6 : TableWord.Statement .wUnknown6 := ⟨rfl, by decide⟩
theorem TableWord.wUnknown7 : TableWord.Statement .wUnknown7 := ⟨rfl, by decide⟩
theorem TableWord.wBody : TableWord.Statement .wBody := ⟨rfl, by decide⟩
theorem TableWord.wBodyCks : TableWord.Statement .wBodyCks := ⟨rfl, by decide⟩
theorem TableWord.wSkip10 : TableWord.Statement .wSkip10 := ⟨rfl, by decide⟩
theorem TableWord.wUnknown11 : TableWord.Statement .wUnknown11 := ⟨rfl, by decide⟩
theorem TableWord.wUnknown12 : TableWord.Statement .wUnknown12 := ⟨rfl, by decide⟩
theorem TableWord.wStop : TableWord.Statement .wStop := ⟨rfl, by decide⟩
theorem TableWord.wUnknown14 : TableWord.Statement .wUnknown14 := ⟨rfl, by decide⟩
theorem TableWord.wUnknown15 : TableWord.Statement .wUnknown15 := ⟨rfl, by decide⟩

end Sys2Proof.Laws
end

