-- ==== Sys2Proof/Laws/Pulses.lean ====
section
/-!
SUPPORT. The tape format's small laws: the preamble pulses at the defaults, the lengths of frames and
sections, and the two helpers of a data bit.
-/
namespace Sys2Proof.Machine

/-- `PRE(k)` at the defaults (30_encoding.md R95). -/
theorem prePulse_machine (k : Nat) : prePulse Config.machine k =
    if k < 120 then short else if k < 160 then long else if k < 200 then short else long := rfl

/-- `BPRE(k)` at the defaults (30_encoding.md R98). -/
theorem bprePulse_machine (k : Nat) : bprePulse Config.machine k =
    if k = 0 then long else if k < 121 then short else if k < 141 then long
    else if k < 161 then short else long := rfl

@[simp] theorem byteFrame_length (b : Byte) : (byteFrame b).length = 9 := rfl

@[simp] theorem sectionFrames_nil : sectionFrames [] = [] := rfl

@[simp] theorem sectionFrames_cons (b : Byte) (bs : List Byte) :
    sectionFrames (b :: bs) = byteFrame b ++ sectionFrames bs := rfl

@[simp] theorem sectionFrames_length (bs : List Byte) : (sectionFrames bs).length = 9 * bs.length := by
  induction bs with
  | nil => rfl
  | cons b bs ih => rw [sectionFrames_cons, List.length_append, ih, byteFrame_length]; simp; omega

@[simp] theorem checksumFrames_length (v : Half) : (checksumFrames v).length = 18 := rfl

@[simp] theorem bigPreamble_length (c : Config) : (bigPreamble c).length = c.rPreLen := by
  simp [bigPreamble]

@[simp] theorem bodyPreamble_length (c : Config) : (bodyPreamble c).length = c.rBpreLen := by
  simp [bodyPreamble]

@[simp] theorem writePreamble_length (c : Config) : (writePreamble c).length = c.wPreLen := by
  simp [writePreamble]

/-- The symbol of a pulse as an event records it. -/
theorem zextBit_eq (p : Bit) : zextBit p = if p = true then 1 else 0 := by cases p <;> rfl

/-- A data bit shifted into the byte register (10_state.md R40). -/
theorem shiftIn_byte (v : Byte) (p : Bit) :
    shiftIn v p = (v <<< 1) ||| (if p = true then 1#8 else 0#8) := by cases p <;> rfl

/-- A data bit shifted into the checksum register (10_state.md R41). -/
theorem shiftIn_half (v : Half) (p : Bit) :
    shiftIn v p = (v <<< 1) ||| (if p = true then 1#16 else 0#16) := by cases p <;> rfl

end Sys2Proof.Machine
end

