-- ==== Sys2Proof/Laws/Read.lean ====
section
/-!
SUPPORT. What the read FSM can do, said once: the byte frame's two cases, the handler a state code
selects, the parts of the state a dispatch can write, and the cursor it leaves.
-/
namespace Sys2Proof.Machine

/-- A byte frame at its sync pulse (41_read_fsm.md R171). -/
theorem rByteFrame_sync {byte : Byte} {counted isbody : Bool} {s : State}
    (h : s.rd.rcnt.toNat % 8 = 0 ∧ s.rd.rsync = false) :
    rByteFrame byte counted isbody s = (s.setRd { s.rd with rsync := true }).answer long := by
  rw [rByteFrame, if_pos ((atSyncPulse_eq_true _ _).2 h)]

/-- A byte frame at a data bit (41_read_fsm.md R171). -/
theorem rByteFrame_bit {byte : Byte} {counted isbody : Bool} {s : State}
    (h : ¬ (s.rd.rcnt.toNat % 8 = 0 ∧ s.rd.rsync = false)) :
    rByteFrame byte counted isbody s =
      ((s.setRd { s.rd with
          rsum := if counted then countOne s.rd.rsum (byteBit byte (s.rd.rcnt.toNat % 8)) else s.rd.rsum
          rcnt := s.rd.rcnt + 1
          rsync := if byteComplete (s.rd.rcnt + 1) then false else s.rd.rsync }).setTcount
        (if byteComplete (s.rd.rcnt + 1) && isbody then s.tcount + 1 else s.tcount)).answer
        (byteBit byte (s.rd.rcnt.toNat % 8)) := by
  rw [rByteFrame, if_neg (by rwa [atSyncPulse_eq_true])]

/-- A byte frame entered by a fall-through sends its sync pulse. -/
theorem rByteFrame_fresh {byte : Byte} {counted isbody : Bool} {s : State} (h0 : s.rd.rcnt = 0)
    (hy : s.rd.rsync = false) :
    rByteFrame byte counted isbody s = (s.setRd { s.rd with rsync := true }).answer long :=
  rByteFrame_sync ⟨by rw [h0]; rfl, hy⟩

theorem readFromBodyCks_fresh {c : Config} {s : State} (hc : 0 < c.cksBits) (h0 : s.rd.rcnt = 0)
    (hy : s.rd.rsync = false) :
    readFromBodyCks c s = .next ((s.setRd { s.rd with rsync := true }).answer long) := by
  rw [readFromBodyCks, rBodyCks, if_pos (by rw [h0]; exact hc), rByteFrame_fresh h0 hy]
  rfl

theorem readFromBody_fresh {c : Config} {s : State} (hb : 0 < c.bodyMax) (hn : s.rd.rblen ≠ 0)
    (h0 : s.rd.rcnt = 0) (hy : s.rd.rsync = false) :
    readFromBody c s = .next ((s.setRd { s.rd with rsync := true }).answer long) := by
  have : 0 < s.rd.rblen.toNat := by
    rw [Nat.pos_iff_ne_zero]
    exact fun h => hn (BitVec.eq_of_toNat_eq (by simpa using h))
  rw [readFromBody, rBody, if_pos (by rw [h0]; show 0 < _; omega),
    if_neg (by rw [h0]; show ¬ c.bodyMax ≤ 0; omega), rByteFrame_fresh h0 hy]
  rfl

/-- With an empty body it sends the sync pulse of the body checksum. -/
theorem readFromBody_fresh_empty {c : Config} {s : State} (hc : 0 < c.cksBits) (hn : s.rd.rblen = 0) :
    readFromBody c s = .next ((s.setRd
      { s.rd with rstate := 9, rcnt := 0, rsync := true, rcks := s.rd.rsum }).answer long) := by
  rw [readFromBody, rBody, if_neg (by simp [hn]), Turn.andThen_again, readFromBodyCks_fresh hc rfl rfl]
  rfl

theorem readFromBodyPre_fresh {c : Config} {s : State} (h0 : s.rd.rcnt = 0) :
    readFromBodyPre c s = .next ((s.setRd { s.rd with rcnt := 1 }).answer (bprePulse c 0)) := by
  rw [readFromBodyPre, rBodyPre, if_pos (by rw [h0]; simp only [Config.rBpreLen]; show 0 < _; omega), h0]
  rfl

theorem readFromHdrCks_fresh {c : Config} {s : State} (hc : 0 < c.cksBits) (h0 : s.rd.rcnt = 0)
    (hy : s.rd.rsync = false) :
    readFromHdrCks c s = .next ((s.setRd { s.rd with rsync := true }).answer long) := by
  rw [readFromHdrCks, rHdrCks, if_pos (by rw [h0]; exact hc), rByteFrame_fresh h0 hy]
  rfl

theorem readFromHeader_fresh {c : Config} {s : State} (hh : 0 < c.hdrBits) (h0 : s.rd.rcnt = 0)
    (hy : s.rd.rsync = false) :
    readFromHeader c s = .next ((s.setRd { s.rd with rsync := true }).answer long) := by
  rw [readFromHeader, rHeader, if_pos (by rw [h0]; exact hh), rByteFrame_fresh h0 hy]
  rfl

/-- What an advancing call can leave: a new cursor, tape counter and level with everything else kept,
or the state after R.STOP. -/
def ReadEffect (s t : State) : Prop :=
  (∃ rd n v, t = ((s.setRd rd).setTcount n).answer v) ∨ t = rStop s

theorem ReadEffect.of_again {s s' t : State} {rd : ReadCursor} (h : ReadEffect s' t)
    (hs : s' = s.setRd rd) : ReadEffect s t := by
  subst hs
  obtain ⟨rd', n, v, rfl⟩ | rfl := h
  · exact .inl ⟨rd', n, v, rfl⟩
  · exact .inr rfl

theorem rByteFrame_effect (byte : Byte) (counted isbody : Bool) (s : State) :
    ReadEffect s (rByteFrame byte counted isbody s) := by
  by_cases h : s.rd.rcnt.toNat % 8 = 0 ∧ s.rd.rsync = false
  · exact .inl ⟨_, s.tcount, long, rByteFrame_sync h⟩
  · exact .inl ⟨_, _, _, rByteFrame_bit h⟩

theorem readFromStop_effect {s t : State} (h : readFromStop s = .next t) : ReadEffect s t := by
  cases h; exact .inr rfl

theorem readFromBodyCks_effect {c : Config} {s t : State} (h : readFromBodyCks c s = .next t) :
    ReadEffect s t := by
  rw [readFromBodyCks, rBodyCks] at h
  split at h
  · cases h; exact rByteFrame_effect _ _ _ _
  · rw [Turn.andThen_again] at h; exact (readFromStop_effect h).of_again rfl

theorem readFromBody_effect {c : Config} {s t : State} (h : readFromBody c s = .next t) :
    ReadEffect s t := by
  rw [readFromBody, rBody] at h
  split at h
  · split at h
    · cases h
    · cases h; exact rByteFrame_effect _ _ _ _
  · rw [Turn.andThen_again] at h; exact (readFromBodyCks_effect h).of_again rfl

theorem readFromBodyPre_effect {c : Config} {s t : State} (h : readFromBodyPre c s = .next t) :
    ReadEffect s t := by
  rw [readFromBodyPre, rBodyPre] at h
  split at h
  · cases h; exact .inl ⟨_, s.tcount, _, rfl⟩
  · rw [Turn.andThen_again] at h; exact (readFromBody_effect h).of_again rfl

theorem readFromHdrCks_effect {c : Config} {s t : State} (h : readFromHdrCks c s = .next t) :
    ReadEffect s t := by
  rw [readFromHdrCks, rHdrCks] at h
  split at h
  · cases h; exact rByteFrame_effect _ _ _ _
  · rw [Turn.andThen_again] at h; exact (readFromBodyPre_effect h).of_again rfl

theorem readFromHeader_effect {c : Config} {s t : State} (h : readFromHeader c s = .next t) :
    ReadEffect s t := by
  rw [readFromHeader, rHeader] at h
  split at h
  · cases h; exact rByteFrame_effect _ _ _ _
  · rw [Turn.andThen_again] at h; exact (readFromHdrCks_effect h).of_again rfl

theorem readFromPreamble_effect {c : Config} {s t : State} (h : readFromPreamble c s = .next t) :
    ReadEffect s t := by
  rw [readFromPreamble, rPreamble] at h
  split at h
  · cases h; exact .inl ⟨_, s.tcount, _, rfl⟩
  · rw [Turn.andThen_again] at h; exact (readFromHeader_effect h).of_again rfl

/-- R.IDLE always ends in the preamble's first pulse. -/
theorem readFromIdle_eq (c : Config) (s : State) :
    readFromIdle c s = .next
      (((rIdle s).setRd { (rIdle s).rd with rcnt := (rIdle s).rd.rcnt + 1 }).answer (prePulse c 0)) := by
  rw [readFromIdle, readFromPreamble, rPreamble, if_pos]
  · rfl
  · show 0 < c.rPreLen
    simp only [Config.rPreLen]
    omega

theorem readFromIdle_effect {c : Config} {s t : State} (h : readFromIdle c s = .next t) :
    ReadEffect s t := by
  rw [readFromIdle_eq] at h
  cases h
  exact .inl ⟨_, _, _, rfl⟩

/-- An advancing call is the handler its state code selects (30_encoding.md R114). -/
theorem readAdvance_eq_exec (s : State) :
    readAdvance Config.machine s = exec (decodeReadCode s.rd.rstate) s := by
  obtain ⟨⟨k⟩, hk⟩ : ∃ k : Fin 16, s.rd.rstate = BitVec.ofFin k := ⟨s.rd.rstate.toFin, by simp⟩
  unfold readAdvance decodeReadCode
  rw [hk]
  simp only [BitVec.toNat_ofFin]
  interval_cases k <;> rfl

/-- Everything a read handler that answers a state can have done. -/
theorem exec_read_cases {i : Instr} {s t : State} (hi : i.space = .readState)
    (h : exec i s = .next t) : ReadEffect s t ∨ t = rUnknown s := by
  cases i <;> first
    | (exfalso; revert hi; simp [Instr.space]; done)
    | exact .inl (readFromIdle_effect h)
    | exact .inl (readFromPreamble_effect h)
    | exact .inl (readFromHeader_effect h)
    | exact .inl (readFromHdrCks_effect h)
    | exact .inl (readFromBodyPre_effect h)
    | exact .inl (readFromBody_effect h)
    | exact .inl (readFromBodyCks_effect h)
    | exact .inl (readFromStop_effect h)
    | exact .inr (by cases h; rfl)

/-- The instruction a read code selects lives in the read space. -/
theorem decodeReadCode_space (code : Code) : (decodeReadCode code).space = .readState := by
  revert code; decide

/-- Everything a READ_BIT that answers a state can have done (40_interface_ops.md R131). -/
theorem execReadBit_cases {s t : State} (h : exec .readBit s = .next t) :
    (∃ ph v, t = (s.setRd { s.rd with rphase := ph }).answer v) ∨
    (s.motor = true ∧ readHeldOff s = false ∧ s.rd.rphase = .data ∧
      exec (decodeReadCode s.rd.rstate) (s.setRd { s.rd with rphase := .trail }) = .next t) := by
  change readBit Config.machine s = .next t at h
  rw [readBit] at h
  split at h
  · cases h
    split
    · exact .inl ⟨.lead, long, rfl⟩
    · exact .inl ⟨s.rd.rphase, long, rfl⟩
  · rename_i hm
    split at h
    · cases h; exact .inl ⟨s.rd.rphase, long, rfl⟩
    · rename_i hh
      split at h
      · cases h; exact .inl ⟨_, _, rfl⟩
      · cases h; exact .inl ⟨_, _, rfl⟩
      · rename_i hp
        rw [readAdvance_eq_exec] at h
        exact .inr ⟨by simpa using hm, by simpa using hh, hp, h⟩

end Sys2Proof.Machine
end

