-- ==== Sys2Proof/Laws/Write.lean ====
section
/-!
SUPPORT. What the write FSM can do, said once: the sync and checksum pulses, each handler entered
afresh after a fall-through, the handler a state code selects, and the parts of the state a pulse can
write.
-/
namespace Sys2Proof.Machine

/-- The sync pulse is consumed (42_write_fsm.md R201). -/
theorem wSkipSync_sync {s : State} (h : s.wr.wcnt.toNat % 8 = 0 ∧ s.wr.wsync = false) :
    wSkipSync s = some (s.setWr { s.wr with wsync := true }) := by
  rw [wSkipSync, if_pos ((atSyncPulse_eq_true _ _).2 h)]

/-- A data pulse is left to the handler (42_write_fsm.md R201). -/
theorem wSkipSync_data {s : State} (h : ¬ (s.wr.wcnt.toNat % 8 = 0 ∧ s.wr.wsync = false)) :
    wSkipSync s = none := by
  rw [wSkipSync, if_neg (by rwa [atSyncPulse_eq_true])]

/-- A handler entered by a fall-through stands at a byte boundary before its sync pulse. -/
theorem wSkipSync_fresh {s : State} (h0 : s.wr.wcnt = 0) (hy : s.wr.wsync = false) :
    wSkipSync s = some (s.setWr { s.wr with wsync := true }) :=
  wSkipSync_sync ⟨by rw [h0]; rfl, hy⟩

/-- What one pulse that stores no byte can leave, W.IDLE apart: a new cursor, a new cursor and one
event, or the state after a PERSIST. -/
inductive WriteKeeps (c : Config) (p : Bit) (s t : State) : Prop
  | cursor (wr : WriteCursor) (h : t = s.setWr wr)
  | logged (code : LogCode) (a b : Count) (wr : WriteCursor) (h : t = (s.log code a b).setWr wr)
  | persisted (hp : p = long) (hn : s.wr.wblen.toNat ≤ c.bodyMax) (h : t = (s.persist c).resetAll)

/-- What an eighth data bit of the header leaves (42_write_fsm.md R204). -/
def StoresHeader (c : Config) (s t : State) : Prop :=
  s.wr.wcnt.toNat < c.hdrBits ∧ (s.wr.wcnt + 1).toNat % 8 = 0 ∧ ∃ wr v,
    t = (s.setWr wr).setHeader (s.header.write ((s.wr.wcnt + 1).toNat / 8 - 1) v)

/-- What an eighth data bit of the body leaves (42_write_fsm.md R207). -/
def StoresBody (c : Config) (s t : State) : Prop :=
  s.wr.wcnt.toNat < 8 * s.wr.wblen.toNat ∧ (s.wr.wcnt + 1).toNat % 8 = 0 ∧
    (s.wr.wcnt + 1).toNat / 8 - 1 < c.bodyMax ∧ ∃ wr v,
    t = ((s.setWr wr).setBody (s.body.write ((s.wr.wcnt + 1).toNat / 8 - 1) v)).setTcount (s.tcount + 1)

/-- A checksum pulse writes the cursor, and logs where the sixteenth bit does not match. -/
theorem wChecksumPulse_effect (c : Config) (code : LogCode) (p : Bit) (s : State) :
    (∃ wr, wChecksumPulse c code p s = s.setWr wr) ∨
    ∃ a b wr, wChecksumPulse c code p s = (s.log code a b).setWr wr := by
  by_cases h : s.wr.wcnt.toNat % 8 = 0 ∧ s.wr.wsync = false
  · exact .inl ⟨_, by rw [wChecksumPulse, wSkipSync_sync h]⟩
  · rw [wChecksumPulse, wSkipSync_data h]
    dsimp only
    split
    · exact .inr ⟨_, _, _, rfl⟩
    · exact .inl ⟨_, rfl⟩

theorem wChecksumPulse_fresh {c : Config} {code : LogCode} {p : Bit} {s : State} (h0 : s.wr.wcnt = 0)
    (hy : s.wr.wsync = false) :
    wChecksumPulse c code p s = s.setWr { s.wr with wsync := true } := by
  rw [wChecksumPulse, wSkipSync_fresh h0 hy]

theorem writeFromBodyCks_fresh {c : Config} {p : Bit} {s : State} (hc : 0 < c.cksBits)
    (h0 : s.wr.wcnt = 0) (hy : s.wr.wsync = false) :
    writeFromBodyCks c p s = .next (s.setWr { s.wr with wsync := true }) := by
  rw [writeFromBodyCks, wBodyCks, if_pos (by rw [h0]; exact hc), Turn.andThen_done,
    wChecksumPulse_fresh h0 hy]

/-- W.BODY entered by a fall-through takes the sync pulse of `body[0]`. -/
theorem writeFromBody_fresh {c : Config} {p : Bit} {s : State} (hn : s.wr.wblen ≠ 0)
    (h0 : s.wr.wcnt = 0) (hy : s.wr.wsync = false) :
    writeFromBody c p s = .next (s.setWr { s.wr with wsync := true }) := by
  have : 0 < s.wr.wblen.toNat := by
    rw [Nat.pos_iff_ne_zero]
    exact fun h => hn (BitVec.eq_of_toNat_eq (by simpa using h))
  rw [writeFromBody, wBody, if_pos (by rw [h0]; show 0 < _; omega), wSkipSync_fresh h0 hy]
  rfl

/-- With an empty body it takes the sync pulse of the body checksum. -/
theorem writeFromBody_fresh_empty {c : Config} {p : Bit} {s : State} (hc : 0 < c.cksBits)
    (hn : s.wr.wblen = 0) :
    writeFromBody c p s = .next (s.setWr
      { s.wr with wstate := 9, wcnt := 0, wcks := 0, wsync := true }) := by
  rw [writeFromBody, wBody, if_neg (by simp [hn]), Turn.andThen_again, writeFromBodyCks_fresh hc rfl rfl]
  rfl

/-- The eighth data bit of a body byte inside the buffer (42_write_fsm.md R207). -/
theorem writeFromBody_store {c : Config} {p : Bit} {s : State}
    (hlt : s.wr.wcnt.toNat < 8 * s.wr.wblen.toNat)
    (hn : ¬ (s.wr.wcnt.toNat % 8 = 0 ∧ s.wr.wsync = false)) (h8 : byteComplete (s.wr.wcnt + 1) = true)
    (hi : (s.wr.wcnt + 1).toNat / 8 - 1 < c.bodyMax) :
    writeFromBody c p s = .next (((s.setWr { wDataBit p s.wr with wsync := false }).setBody
      (s.body.write ((s.wr.wcnt + 1).toNat / 8 - 1) (shiftIn s.wr.wbyte p))).setTcount (s.tcount + 1)) := by
  rw [writeFromBody, wBody, if_pos hlt, wSkipSync_data hn]
  dsimp only
  rw [if_pos (by exact h8), if_neg (by exact Nat.not_le.2 hi)]
  rfl

/-- The eighth data bit of a header byte (42_write_fsm.md R204). -/
theorem writeFromHeader_store {c : Config} {p : Bit} {s : State} (hlt : s.wr.wcnt.toNat < c.hdrBits)
    (hn : ¬ (s.wr.wcnt.toNat % 8 = 0 ∧ s.wr.wsync = false)) (h8 : byteComplete (s.wr.wcnt + 1) = true) :
    writeFromHeader c p s = .next ((s.setWr { wDataBit p s.wr with wsync := false }).setHeader
      (s.header.write ((s.wr.wcnt + 1).toNat / 8 - 1) (shiftIn s.wr.wbyte p))) := by
  rw [writeFromHeader, wHeader, if_pos hlt, wSkipSync_data hn]
  dsimp only
  rw [if_pos (by exact h8)]
  rfl

/-- A write that completes (42_write_fsm.md R210). -/
theorem writeFromStop_long {c : Config} {s : State} (h : s.wr.wblen.toNat ≤ c.bodyMax) :
    writeFromStop c long s = .next (s.persist c).resetAll := by
  rw [writeFromStop, wStop, if_pos rfl, if_neg (Nat.not_lt.2 h)]
  rfl

/-- Whatever W.SKIP4 does, it writes the cursor only. -/
theorem writeFromSkip4_cursor (c : Config) (p : Bit) (s : State) (hc : 0 < c.cksBits) :
    ∃ wr, writeFromSkip4 c p s = .next (s.setWr wr) := by
  rw [writeFromSkip4, wSkip4]
  split
  · exact ⟨_, rfl⟩
  · rw [Turn.andThen_again]
    by_cases hn : s.wr.wblen = 0
    · exact ⟨_, (writeFromBody_fresh_empty hc (by exact hn)).trans rfl⟩
    · exact ⟨_, (writeFromBody_fresh (by exact hn) rfl rfl).trans rfl⟩

theorem writeFromHdrCks_fresh {c : Config} {p : Bit} {s : State} (hc : 0 < c.cksBits)
    (h0 : s.wr.wcnt = 0) (hy : s.wr.wsync = false) :
    writeFromHdrCks c p s = .next (s.setWr { s.wr with wsync := true }) := by
  rw [writeFromHdrCks, wHdrCks, if_pos (by rw [h0]; exact hc), Turn.andThen_done,
    wChecksumPulse_fresh h0 hy]

theorem writeFromHeader_fresh {c : Config} {p : Bit} {s : State} (hc : 0 < c.hdrBits)
    (h0 : s.wr.wcnt = 0) (hy : s.wr.wsync = false) :
    writeFromHeader c p s = .next (s.setWr { s.wr with wsync := true }) := by
  rw [writeFromHeader, wHeader, if_pos (by rw [h0]; exact hc), wSkipSync_fresh h0 hy]
  rfl

theorem writeFromStop_effect {c : Config} {p : Bit} {s t : State} (h : writeFromStop c p s = .next t) :
    WriteKeeps c p s t := by
  rw [writeFromStop, wStop] at h
  split at h
  · rename_i hp
    split at h
    · cases h
    · rename_i hn
      cases h; exact .persisted hp (by omega) rfl
  · cases h; exact .logged _ _ _ _ rfl

theorem writeFromSkip10_effect {c : Config} {p : Bit} {s t : State}
    (h : writeFromSkip10 c p s = .next t) : WriteKeeps c p s t := by
  rw [writeFromSkip10, wSkip10] at h
  split at h
  · cases h; exact .cursor _ rfl
  · rw [Turn.andThen_again, writeFromStop, wStop] at h
    split at h
    · rename_i hp
      split at h
      · cases h
      · rename_i hn
        cases h; exact .persisted hp (by simpa using hn) rfl
    · cases h; exact .logged _ _ _ _ rfl

theorem writeFromBodyCks_effect {c : Config} {p : Bit} {s t : State}
    (h : writeFromBodyCks c p s = .next t) : WriteKeeps c p s t := by
  rw [writeFromBodyCks, wBodyCks] at h
  split at h
  · cases h
    obtain ⟨wr, e⟩ | ⟨a, b, wr, e⟩ := wChecksumPulse_effect c .wBodyCksMismatch p s
    · exact .cursor wr e
    · exact .logged _ a b wr e
  · rw [Turn.andThen_again] at h
    rw [writeFromSkip10, wSkip10] at h
    split at h
    · cases h; exact .cursor _ rfl
    · rw [Turn.andThen_again, writeFromStop, wStop] at h
      split at h
      · rename_i hp
        split at h
        · cases h
        · rename_i hn
          cases h; exact .persisted hp (by simpa using hn) rfl
      · cases h; exact .logged _ _ _ _ rfl

theorem writeFromBody_next {c : Config} {p : Bit} {s t : State} (hc : 0 < c.cksBits)
    (h : writeFromBody c p s = .next t) : (∃ wr, t = s.setWr wr) ∨ StoresBody c s t := by
  rw [writeFromBody, wBody] at h
  split at h
  · rename_i hlt
    by_cases hy : s.wr.wcnt.toNat % 8 = 0 ∧ s.wr.wsync = false
    · rw [wSkipSync_sync hy] at h
      cases h; exact .inl ⟨_, rfl⟩
    · rw [wSkipSync_data hy] at h
      dsimp only at h
      split at h
      · rename_i h8
        split at h
        · cases h
        · rename_i hi
          cases h
          exact .inr ⟨hlt, (byteComplete_eq_true _).1 h8, Nat.lt_of_not_le hi, _, _, rfl⟩
      · cases h; exact .inl ⟨_, rfl⟩
  · rw [Turn.andThen_again, writeFromBodyCks_fresh hc rfl rfl] at h
    cases h; exact .inl ⟨_, rfl⟩

theorem writeFromHdrCks_effect {c : Config} {p : Bit} {s t : State} (hc : 0 < c.cksBits)
    (h : writeFromHdrCks c p s = .next t) : WriteKeeps c p s t := by
  rw [writeFromHdrCks, wHdrCks] at h
  split at h
  · cases h
    obtain ⟨wr, e⟩ | ⟨a, b, wr, e⟩ := wChecksumPulse_effect c .wHdrCksMismatch p s
    · exact .cursor wr e
    · exact .logged _ a b wr e
  · rw [Turn.andThen_again] at h
    obtain ⟨wr, e⟩ := writeFromSkip4_cursor c p (s.setWr { s.wr with
      wstate := 4, wcnt := 0, wsync := false, wsum := 0, wblen := declaredLength c s.header }) hc
    rw [e] at h
    cases h; exact .cursor wr rfl

theorem writeFromHeader_next {c : Config} {p : Bit} {s t : State} (hc : 0 < c.cksBits)
    (h : writeFromHeader c p s = .next t) : (∃ wr, t = s.setWr wr) ∨ StoresHeader c s t := by
  rw [writeFromHeader, wHeader] at h
  split at h
  · rename_i hlt
    by_cases hy : s.wr.wcnt.toNat % 8 = 0 ∧ s.wr.wsync = false
    · rw [wSkipSync_sync hy] at h
      cases h; exact .inl ⟨_, rfl⟩
    · rw [wSkipSync_data hy] at h
      dsimp only at h
      split at h
      · rename_i h8
        cases h
        exact .inr ⟨hlt, (byteComplete_eq_true _).1 h8, _, _, rfl⟩
      · cases h; exact .inl ⟨_, rfl⟩
  · rw [Turn.andThen_again, writeFromHdrCks_fresh hc rfl rfl] at h
    cases h; exact .inl ⟨_, rfl⟩

theorem writeFromPreamble_effect {c : Config} {p : Bit} {s t : State} (hc : 0 < c.hdrBits)
    (h : writeFromPreamble c p s = .next t) : WriteKeeps c p s t := by
  rw [writeFromPreamble, wPreamble] at h
  split at h
  · split at h
    · cases h; exact .logged _ _ _ _ rfl
    · cases h; exact .cursor _ rfl
  · rw [Turn.andThen_again, writeFromHeader_fresh hc rfl rfl] at h
    cases h; exact .cursor _ rfl

/-- W.IDLE always ends in the preamble's first position. -/
theorem writeFromIdle_eq (c : Config) (p : Bit) (s : State) :
    writeFromIdle c p s = .next (if p = wprePulse c 0 then
      (wIdle s).setWr { (wIdle s).wr with wcnt := 1 }
    else (wIdle s).violateWrite .wPreambleMismatch 0 (zextBit p)) := by
  rw [writeFromIdle, writeFromPreamble, wPreamble, if_pos]
  · by_cases hp : p = wprePulse c 0
    · rw [if_pos hp, if_neg (by simpa [wIdle] using hp)]; rfl
    · rw [if_neg hp, if_pos (by simpa [wIdle] using hp)]; rfl
  · show 0 < c.wPreLen
    simp only [Config.wPreLen]
    omega

/-- An accepted falling edge is the handler its state code selects (30_encoding.md R114). -/
theorem writePulse_eq_exec (s : State) :
    writePulse Config.machine (pulseInHand Config.machine s) s = exec (decodeWriteCode s.wr.wstate) s := by
  obtain ⟨⟨k⟩, hk⟩ : ∃ k : Fin 16, s.wr.wstate = BitVec.ofFin k := ⟨s.wr.wstate.toFin, by simp⟩
  unfold writePulse decodeWriteCode
  rw [hk]
  simp only [BitVec.toNat_ofFin]
  interval_cases k <;> rfl

/-- The instruction a write code selects lives in the write space. -/
theorem decodeWriteCode_space (code : Code) : (decodeWriteCode code).space = .writeState := by
  revert code; decide

/-- Everything a write handler that answers a state can have done. -/
theorem exec_write_cases {i : Instr} {s t : State} (hi : i.space = .writeState)
    (h : exec i s = .next t) :
    WriteKeeps Config.machine (pulseInHand Config.machine s) s t ∨
    (i = .wHeader ∧ StoresHeader Config.machine s t) ∨
    (i = .wBody ∧ StoresBody Config.machine s t) ∨
    (i = .wIdle ∧ writeFromIdle Config.machine (pulseInHand Config.machine s) s = .next t) := by
  have hc : 0 < Config.machine.cksBits := by simp
  have hh : 0 < Config.machine.hdrBits := by simp
  cases i <;> first
    | (exfalso; revert hi; simp [Instr.space]; done)
    | exact .inr (.inr (.inr ⟨rfl, h⟩))
    | exact .inl (writeFromPreamble_effect hh h)
    | exact .inl (writeFromHdrCks_effect hc h)
    | exact .inl (writeFromBodyCks_effect h)
    | exact .inl (writeFromSkip10_effect h)
    | exact .inl (writeFromStop_effect h)
    | exact .inl (by cases h; exact .logged _ _ _ _ rfl)
    | (obtain ⟨wr, e⟩ | e := writeFromHeader_next hc h
       · exact .inl (.cursor wr e)
       · exact .inr (.inl ⟨rfl, e⟩))
    | (obtain ⟨wr, e⟩ | e := writeFromBody_next hc h
       · exact .inl (.cursor wr e)
       · exact .inr (.inr (.inl ⟨rfl, e⟩)))
    | (obtain ⟨wr, e⟩ := writeFromSkip4_cursor Config.machine (pulseInHand Config.machine s) s hc
       cases e.symm.trans h
       exact .inl (.cursor wr rfl))

/-- Everything a WRITE_BIT that answers a state can have done (40_interface_ops.md R132). -/
theorem execWriteBit_cases {b : Bit} {s t : State} (h : exec (.writeBit b) s = .next t) :
    (∃ line time, t = s.setWr { s.wr with wline := line, wt0 := time }) ∨
    (b = false ∧ s.motor = true ∧ s.sense = true ∧ s.wr.wline = true ∧
      exec (decodeWriteCode s.wr.wstate) (s.setWr { s.wr with wline := false }) = .next t) := by
  change writeBit Config.machine b s = .next t at h
  rw [writeBit] at h
  split at h
  · cases h; exact .inl ⟨s.wr.wline, s.wr.wt0, rfl⟩
  · rename_i hg
    split at h
    · cases h; exact .inl ⟨_, _, rfl⟩
    · split at h
      · rename_i hf
        have e := writePulse_eq_exec (s.setWr { s.wr with wline := false })
        rw [show pulseInHand Config.machine (s.setWr { s.wr with wline := false })
          = pulseInHand Config.machine s from rfl] at e
        rw [e] at h
        simp only [fallingEdge, writeGate, Bool.and_eq_true, Bool.not_eq_true',
          Bool.not_eq_false] at hf hg
        exact .inr ⟨hf.1, hg.1, hg.2, hf.2, h⟩
      · cases h; exact .inl ⟨s.wr.wline, s.wr.wt0, rfl⟩

end Sys2Proof.Machine
end

