-- ==== Sys2Proof/Tests/Slice0.lean ====
section
/-!
SUPPORT. Tests of the model, the expected values taken from the spec's tables, examples and vectors
(95_test_vectors.md) by hand; and, for every obligation with hypotheses, states and operands that meet
them.
-/
namespace Sys2Proof.Tests
open Sys2Proof.Machine

-- ===== helpers =====

/-- The parameters of 95_test_vectors.md P3. -/
def cfg : Config := Config.withOpen ⟨2, 3, fun _ => 1, 15⟩

/-- `WBGAP_L` = 3, as 95_test_vectors.md T20 to T30 have it. -/
def cfg3 : Config := Config.withOpen ⟨3, 3, fun _ => 1, 15⟩

/-- The parameters of 95_test_vectors.md T33: no gap, no skips. -/
def cfg0 : Config := Config.withOpen ⟨0, 0, fun _ => 0, 15⟩

/-- The round-trip parameters RT (92_eei_decisions.md). -/
def cfgRT : Config := Config.withOpen ⟨120, 162, fun _ => 0, 15⟩

/-- The suggested `WBGAP_L` of 92_eei_decisions.md P1. -/
def cfgLong : Config := Config.withOpen ⟨22000, 12469, fun _ => 0, 15⟩

/-- Both gates on, everything else at power-on. -/
def on : State := { State.reset with motor := true, sense := true }

/-- A read state between operations. -/
def rdAt (code : Code) (cnt : Count) (sync : Bit) : State :=
  { on with rd := { ReadCursor.zero with rstate := code, rcnt := cnt, rsync := sync } }

/-- A write state at a falling edge whose pulse lasted `dt` microseconds. -/
def wrAt (code : Code) (cnt : Count) (sync : Bit) (dt : Time) : State :=
  { on with
    wr := { WriteCursor.zero with wstate := code, wcnt := cnt, wsync := sync }
    port := { SideInput.zero with now := dt } }

/-- The answer is a next state with the property `p`. -/
def nextIs (r : Result) (p : State → Bool) : Bool :=
  match r with
  | .next t => p t
  | _ => false

/-- IMG2's header (95_test_vectors.md). -/
def img2Header : Memory := [(0, 0x01#8), (1, 0x41#8), (2, 0x42#8), (3, 0x0D#8), (18, 0x02#8)]

/-- IMG2's body. -/
def img2Body : Memory := [(0, 0xA5#8), (1, 0xFF#8)]

/-- IMG2 as PRELOAD carries it. -/
def img2 : Image := { header := img2Header.bytes 128, body := [0xA5#8, 0xFF#8] }

-- ===== encodings =====

/-- 30_encoding.md R112, word by word. -/
theorem test_decode_commands :
    decode .command [0b00010000#8] = .ok (.readBit, []) ∧
    decode .command [0b00100000#8] = .ok (.writeBit false, []) ∧
    decode .command [0b00100001#8] = .ok (.writeBit true, []) ∧
    decode .command [0b00110000#8] = .ok (.reset, []) ∧
    decode .command [0b01000000#8] = .ok (.preload, []) ∧
    decode .command [0b01010000#8] = .ok (.setMotor false, []) ∧
    decode .command [0b01010001#8] = .ok (.setMotor true, []) ∧
    decode .command [0b01100000#8] = .ok (.setSense false, []) ∧
    decode .command [0b01100001#8] = .ok (.setSense true, []) ∧
    decode .command [0b01110000#8] = .ok (.senseToggle, []) :=
  ⟨rfl, rfl, rfl, rfl, rfl, rfl, rfl, rfl, rfl, rfl⟩

/-- 30_encoding.md R103, code by code. -/
theorem test_decode_read_codes :
    decode .readState [0b0000#8] = .ok (.rIdle, []) ∧
    decode .readState [0b0001#8] = .ok (.rPreamble, []) ∧
    decode .readState [0b0010#8] = .ok (.rHeader, []) ∧
    decode .readState [0b0011#8] = .ok (.rHdrCks, []) ∧
    decode .readState [0b0100#8] = .ok (.rUnknown4, []) ∧
    decode .readState [0b0101#8] = .ok (.rUnknown5, []) ∧
    decode .readState [0b0110#8] = .ok (.rUnknown6, []) ∧
    decode .readState [0b0111#8] = .ok (.rBodyPre, []) ∧
    decode .readState [0b1000#8] = .ok (.rBody, []) ∧
    decode .readState [0b1001#8] = .ok (.rBodyCks, []) ∧
    decode .readState [0b1010#8] = .ok (.rUnknown10, []) ∧
    decode .readState [0b1011#8] = .ok (.rUnknown11, []) ∧
    decode .readState [0b1100#8] = .ok (.rUnknown12, []) ∧
    decode .readState [0b1101#8] = .ok (.rStop, []) ∧
    decode .readState [0b1110#8] = .ok (.rUnknown14, []) ∧
    decode .readState [0b1111#8] = .ok (.rUnknown15, []) :=
  ⟨rfl, rfl, rfl, rfl, rfl, rfl, rfl, rfl, rfl, rfl, rfl, rfl, rfl, rfl, rfl, rfl⟩

/-- 30_encoding.md R104, code by code. -/
theorem test_decode_write_codes :
    decode .writeState [0b0000#8] = .ok (.wIdle, []) ∧
    decode .writeState [0b0001#8] = .ok (.wPreamble, []) ∧
    decode .writeState [0b0010#8] = .ok (.wHeader, []) ∧
    decode .writeState [0b0011#8] = .ok (.wHdrCks, []) ∧
    decode .writeState [0b0100#8] = .ok (.wSkip4, []) ∧
    decode .writeState [0b0101#8] = .ok (.wUnknown5, []) ∧
    decode .writeState [0b0110#8] = .ok (.wUnknown6, []) ∧
    decode .writeState [0b0111#8] = .ok (.wUnknown7, []) ∧
    decode .writeState [0b1000#8] = .ok (.wBody, []) ∧
    decode .writeState [0b1001#8] = .ok (.wBodyCks, []) ∧
    decode .writeState [0b1010#8] = .ok (.wSkip10, []) ∧
    decode .writeState [0b1011#8] = .ok (.wUnknown11, []) ∧
    decode .writeState [0b1100#8] = .ok (.wUnknown12, []) ∧
    decode .writeState [0b1101#8] = .ok (.wStop, []) ∧
    decode .writeState [0b1110#8] = .ok (.wUnknown14, []) ∧
    decode .writeState [0b1111#8] = .ok (.wUnknown15, []) :=
  ⟨rfl, rfl, rfl, rfl, rfl, rfl, rfl, rfl, rfl, rfl, rfl, rfl, rfl, rfl, rfl, rfl⟩

/-- T54 and R10: words that are no operation and a byte that is no state code. -/
theorem test_decode_rejects :
    decode .command [0x00#8] = .error (.notAnOperation 0x00#8) ∧
    decode .command [0x11#8] = .error (.notAnOperation 0x11#8) ∧
    decode .command [0x31#8] = .error (.notAnOperation 0x31#8) ∧
    decode .command [0x80#8] = .error (.notAnOperation 0x80#8) ∧
    decode .command [0xFF#8] = .error (.notAnOperation 0xFF#8) ∧
    decode .writeState [0x10#8] = .error (.notAStateCode 0x10#8) ∧
    decode .readState [] = .error .noByte := ⟨rfl, rfl, rfl, rfl, rfl, rfl, rfl⟩

/-- R15, R94: `B(A5) = L L S L S S L S L`. -/
theorem test_byteFrame :
    byteFrame 0xA5#8 = [long, long, short, long, short, short, long, short, long] := by decide

/-- T7, T10: the preambles at the boundaries of their runs. -/
theorem test_preamble_boundaries :
    [0, 119, 120, 159, 160, 199, 200].map (prePulse cfg) =
      [short, short, long, long, short, short, long] ∧
    [0, 1, 120, 121, 140, 141, 160, 161].map (bprePulse cfg) =
      [long, short, short, long, long, short, short, long] ∧
    [0, 2, 3, 42, 43, 82, 83].map (wprePulse cfg3) =
      [short, short, long, long, short, short, long] := by decide

/-- R97, V3, T15: 1024 for a header of 0xFF bytes, and the image of 95_test_vectors.md has 9 and 12. -/
theorem test_checksums :
    checksumOf (img2Header.bytes 128) = 9#16 ∧ checksumOf [0xA5#8, 0xFF#8] = 12#16 ∧
    checksumFrames 0x0400#16 = byteFrame 0x04#8 ++ byteFrame 0x00#8 := by decide +kernel

/-- R65: bytes 0x34, 0x12 declare 0x1234. -/
theorem test_declaredLength :
    declaredLength cfg [(18, 0x34#8), (19, 0x12#8)] = 0x1234#16 := by decide

/-- R242: the values of the event codes. -/
theorem test_event_codes :
    [LogCode.rUnknownState, .wUnknownState, .wPreambleMismatch, .wHdrCksMismatch, .wBodyCksMismatch,
      .wStopMismatch].map LogCode.value = [1, 2, 3, 4, 5, 6] := by decide

/-- R107, R108: IMG2's file type is machine code and its filename 0x41 0x42. -/
theorem test_image_fields :
    imageType img2 = .machineCode ∧ imageName cfg img2 = [0x41#8, 0x42#8] := by decide +kernel

-- ===== well-formedness: each check refuses an ill-formed term =====

/-- Every instruction of the type is one (30_encoding.md R112). -/
theorem test_instr_wellFormed : (Instr.writeBit true).wellFormed = true ∧ Instr.wStop.wellFormed = true :=
  ⟨rfl, rfl⟩

theorem test_cfg_wellFormed : cfg.WellFormed := Config.withOpen_wellFormed _

theorem test_refuses_odd_big_mark : ¬ { cfg with btm := 81 }.WellFormed :=
  fun h => absurd h.btm_even (by decide)
theorem test_refuses_odd_small_mark : ¬ { cfg with stm := 41 }.WellFormed :=
  fun h => absurd h.stm_even (by decide)
theorem test_refuses_other_checksum : ¬ { cfg with cksBits := 8 }.WellFormed :=
  fun h => absurd h.cks_two (by decide)
theorem test_refuses_length_outside_header : ¬ { cfg with lenOff := 127 }.WellFormed :=
  fun h => absurd h.len_inside (by decide)
theorem test_refuses_huge_header : ¬ { cfg with hdrBytes := 2 ^ 29 }.WellFormed :=
  fun h => absurd h.hdr_count (by decide)
theorem test_refuses_huge_read_gap : ¬ { cfg with rBgap := 2 ^ 32 }.WellFormed :=
  fun h => absurd h.rpre_count (by decide)
theorem test_refuses_huge_small_gap : ¬ { cfg with rSgap := 2 ^ 32 }.WellFormed :=
  fun h => absurd h.rbpre_count (by decide)
theorem test_refuses_huge_write_gap : ¬ { cfg with wbgapL := 2 ^ 32 - 81 }.WellFormed :=
  fun h => absurd h.wpre_count (by decide)
theorem test_refuses_huge_skip4 : ¬ { cfg with wSkip4 := 2 ^ 32 }.WellFormed :=
  fun h => absurd h.skip4_count (by decide)
theorem test_refuses_huge_skip10 : ¬ { cfg with wSkip10 := fun _ => 2 ^ 32 }.WellFormed :=
  fun h => absurd (h.skip10_count 0) (by decide)
theorem test_refuses_no_body : ¬ { cfg with bodyMax := 0 }.WellFormed :=
  fun h => absurd h.body_pos (by decide)
theorem test_refuses_huge_body : ¬ { cfg with bodyMax := 65537 }.WellFormed :=
  fun h => absurd h.body_bound (by decide)

/-- R140: a short header, a body that is not as long as declared, a body that does not fit. -/
theorem test_refuses_images :
    imageConsistent cfg { header := [], body := [] } = false ∧
    imageConsistent cfg { img2 with body := [0xA5#8] } = false ∧
    imageFits cfg { img2 with body := List.replicate 17 0#8 } = false ∧
    imageConsistent cfg img2 = true ∧ imageFits cfg img2 = true := by decide +kernel

/-- A falling index, a repeated index, a listed blank byte, an index outside the buffer. -/
theorem test_refuses_memories :
    Memory.wf [(3, 1#8), (2, 1#8)] = false ∧ Memory.wf [(3, 1#8), (3, 2#8)] = false ∧
    Memory.wf [(3, 0#8)] = false ∧ Memory.inside [(16, 1#8)] 16 = false ∧
    img2Header.wf = true ∧ img2Header.inside 128 = true := by decide

/-- Writing the blank byte removes the cell. -/
theorem test_memory_blank : (Memory.write [(0, 9#8), (4, 7#8)] 4 0#8) = [(0, 9#8)] := by decide

-- ===== READ_BIT and the read handlers =====

/-- T1: call 1 returns 1 and leaves `rphase` = 1. -/
theorem test_readBit_leading : nextIs (readBit cfg on)
    (fun t => t.rdData == some true && t.rd == { ReadCursor.zero with rphase := .data }) = true := by
  decide

/-- T6: motor off with `rstate` = 0 and `rphase` = 1 leaves `rphase`. -/
theorem test_readBit_motor_off :
    nextIs (readBit cfg { State.reset with rd := { ReadCursor.zero with rphase := .data } })
      (fun t => t.rdData == some true && t.rd.rphase == .data) = true := by decide

/-- T1: call 2 runs R.IDLE and R.PREAMBLE, returns 0 and leaves `rstate` = 1, `rcnt` = 1. -/
theorem test_rIdle :
    nextIs (readBit cfg { on with rd := { ReadCursor.zero with rphase := .data }, tcount := 7 })
      (fun t => t.rdData == some false && t.tcount == 0 &&
        t.rd == { ReadCursor.zero with rstate := 1, rcnt := 1, rphase := .trail }) = true := by decide

/-- T7: `rcnt` = 201 falls through to the sync pulse of `header[0]`. -/
theorem test_rPreamble_end : nextIs (exec .rPreamble (rdAt 1 201 false))
    (fun t => t.rdData == some true && t.rd == { ReadCursor.zero with rstate := 2, rsync := true }) = true := by
  decide

/-- T7: pulse 119 is SHORT. -/
theorem test_rPreamble_gap : nextIs (exec .rPreamble (rdAt 1 119 false))
    (fun t => t.rdData == some false && t.rd.rcnt == 120) = true := by decide

/-- T8: call 629 delivers bit 0 of `header[0]` = 0x01. -/
theorem test_rHeader_bit : nextIs (exec .rHeader { rdAt 2 7 true with header := img2Header })
    (fun t => t.rdData == some true && t.rd.rsum == 1 && t.rd.rcnt == 8 && t.rd.rsync == false) = true := by
  decide

/-- T9: call 4061 latches `rcks` and sends the sync pulse of the checksum. -/
theorem test_rHeader_end :
    nextIs (exec .rHeader { on with rd := { ReadCursor.zero with rstate := 2, rcnt := 1024, rsum := 9 } })
      (fun t => t.rdData == some true && t.rd.rstate == 3 && t.rd.rcnt == 0 && t.rd.rsync &&
        t.rd.rsum == 9 && t.rd.rcks == 9) = true := by decide

/-- R175: `rcks` = 0x0400 sends a 1 as the sixth bit of the high byte. -/
theorem test_rHdrCks_high :
    nextIs (exec .rHdrCks
      { on with rd := { ReadCursor.zero with rstate := 3, rcnt := 5, rsync := true, rcks := 0x0400 } })
      (fun t => t.rdData == some true && t.rd.rsum == 0 && t.rd.rcnt == 6) = true := by decide

/-- V9: call 4115 falls through to the first pulse of the body preamble. -/
theorem test_rHdrCks_end :
    nextIs (exec .rHdrCks { on with
      header := img2Header
      rd := { ReadCursor.zero with rstate := 3, rcnt := 16, rsum := 9, rcks := 9 } })
      (fun t => t.rdData == some true &&
        t.rd == { ReadCursor.zero with rstate := 7, rcnt := 1, rblen := 2, rcks := 9 }) = true := by decide

/-- T14: with an empty body the preamble is followed by the sync pulse of the checksum. -/
theorem test_rBodyPre_empty : nextIs (exec .rBodyPre (rdAt 7 162 false))
    (fun t => t.rdData == some true && t.rd.rstate == 9 && t.rd.rsync && t.rd.rcks == 0) = true := by decide

/-- T11: call 4625, bit 0 of `body[0]` = 0xA5, advances `tcount`. -/
theorem test_rBody_byte :
    nextIs (readFromBody cfg { on with
      body := img2Body
      rd := { ReadCursor.zero with rstate := 8, rcnt := 7, rsync := true, rsum := 3, rblen := 2 } })
      (fun t => t.rdData == some true && t.rd.rsum == 4 && t.rd.rcnt == 8 && t.rd.rsync == false &&
        t.tcount == 1) = true := by decide

/-- R177: bit 6 of `body[0]` = 0xA5 is 0 and is not counted. -/
theorem test_rBody_zero_bit :
    nextIs (readFromBody cfg { on with
      body := img2Body
      rd := { ReadCursor.zero with rstate := 8, rcnt := 1, rsync := true, rsum := 1, rblen := 2 } })
      (fun t => t.rdData == some false && t.rd.rsum == 1 && t.tcount == 0) = true := by decide

/-- R178: `rcks` = 12 sends `L S S S S L L S S` as its second byte. -/
theorem test_rBodyCks_low :
    nextIs (exec .rBodyCks
      { on with rd := { ReadCursor.zero with rstate := 9, rcnt := 13, rsync := true, rcks := 12 } })
      (fun t => t.rdData == some true && t.rd.rcnt == 14) = true := by decide

/-- T12: call 4709 falls through to R.STOP, which resets the block and keeps `tcount`. -/
theorem test_rBodyCks_end :
    nextIs (exec .rBodyCks { on with
      tcount := 2
      rd := { ReadCursor.zero with rstate := 9, rphase := .trail, rcnt := 16, rsum := 12, rcks := 12 } })
      (fun t => t == { State.reset with tcount := 2, rdData := some true }) = true := by decide

/-- R179: R.STOP resets the write cursor too. -/
theorem test_rStop : nextIs (exec .rStop { wrAt 2 9 true 0 with header := img2Header })
    (fun t => t == { State.reset with header := img2Header, rdData := some true }) = true := by decide

/-- T16: `rstate` = 5 logs `(1, 5, 0)`, resets the read cursor only and returns 1. -/
theorem test_rUnknown5 :
    nextIs (readBit cfg { wrAt 2 9 false 0 with
      sense := false
      rd := { ReadCursor.zero with rstate := 5, rcnt := 77, rsum := 3, rphase := .data } })
      (fun t => t == { wrAt 2 9 false 0 with
        sense := false, rdData := some true, events := [.log .rUnknownState 5 0] }) = true := by decide

/-- R180: code 15 is logged with its own value. -/
theorem test_rUnknown15 : nextIs (exec .rUnknown15 (rdAt 15 3 true))
    (fun t => t.events == [.log .rUnknownState 15 0] && t.rd == ReadCursor.zero && t.motor) = true := by
  decide

-- ===== WRITE_BIT and the write handlers =====

/-- T22: a rising edge stamps the clock, a repeated 1 does not. -/
theorem test_writeBit_rising :
    nextIs (writeBit cfg3 true (on.atTime 100)) (fun t => t.wr.wline && t.wr.wt0 == 100) = true ∧
    nextIs (writeBit cfg3 true
        { on.atTime 300 with wr := { WriteCursor.zero with wline := true, wt0 := 100 } })
      (fun t => t.wr.wt0 == 100) = true := by decide

/-- T20, T21: the boundary of the classifier and the wrap of the clock. -/
theorem test_writeBit_falling :
    [(5000, 5399), (5000, 5400), (2 ^ 64 - 100, 150)].map (fun p : Nat × Nat =>
      nextIs (writeBit cfg3 false { on.atTime (BitVec.ofNat 64 p.2) with
          wr := { WriteCursor.zero with wline := true, wt0 := BitVec.ofNat 64 p.1 } })
        (fun t => t.wr.wstate == 1 && t.wr.wcnt == 1 && t.events == []))
      = [true, false, true] := by decide

/-- R202: a LONG first pulse does not match a gap; W.IDLE has cleared `tcount`. -/
theorem test_wIdle_mismatch : nextIs (writeFromIdle cfg3 long { wrAt 0 0 false 400 with tcount := 5 })
    (fun t => t.events == [.log .wPreambleMismatch 0 1] && t.wr == WriteCursor.zero && t.tcount == 0
      && t.motor && t.sense) = true := by decide

/-- R202: a SHORT first pulse is counted. -/
theorem test_wIdle_match : nextIs (writeFromIdle cfg3 short (wrAt 0 0 false 0))
    (fun t => t.wr.wstate == 1 && t.wr.wcnt == 1 && t.events == []) = true := by decide

/-- T30: `S3 L40 S39 L` fails at position 82. -/
theorem test_wPreamble_mismatch : nextIs (writeFromPreamble cfg3 long (wrAt 1 82 false 0))
    (fun t => t.events == [.log .wPreambleMismatch 82 1] && t.wr == WriteCursor.zero) = true := by decide

/-- T31: after the preamble any pulse is consumed as the sync pulse of `header[0]`. -/
theorem test_wPreamble_end : nextIs (writeFromPreamble cfg0 short (wrAt 1 81 false 0))
    (fun t => t.wr == { WriteCursor.zero with wstate := 2, wsync := true }) = true := by decide

/-- T32: the eighth bit of 0x01 stores it. -/
theorem test_wHeader_store : nextIs (writeFromHeader cfg long (wrAt 2 7 true 0))
    (fun t => t.header == [(0, 0x01#8)] && t.wr.wsum == 1 && t.wr.wcnt == 8 && t.wr.wsync == false) = true := by
  decide

/-- T32: after `B(01)` and five pulses of `B(41)` the shift register still holds old bits. -/
theorem test_wHeader_shift : nextIs (writeFromHeader cfg short { on with
      header := [(0, 1#8)]
      wr := { WriteCursor.zero with wstate := 2, wcnt := 11, wsync := true, wsum := 2, wbyte := 0x0A } })
    (fun t => t.wr.wbyte == 0x14 && t.wr.wcnt == 12 && t.wr.wsum == 2 && t.header == [(0, 1#8)]) = true := by
  decide

/-- T35: the sixteenth bit of 0x0100 against `wsum` = 9 logs `(4, 9, 0x0100)` and the write goes on. -/
theorem test_wHdrCks_mismatch : nextIs (writeFromHdrCks cfg short { on with
      wr := { WriteCursor.zero with wstate := 3, wcnt := 15, wsync := true, wsum := 9, wcks := 0x0080 } })
    (fun t => t.events == [.log .wHdrCksMismatch 9 0x0100] && t.wr.wstate == 3 && t.wr.wcnt == 16) = true := by
  decide

/-- T37: with no skips and no body one pulse falls through 3 -> 4 -> 8 -> 9. -/
theorem test_wHdrCks_end : nextIs (writeFromHdrCks cfg0 long (wrAt 3 16 false 400))
    (fun t => t.wr == { WriteCursor.zero with wstate := 9, wsync := true }) = true := by decide

/-- P3: pulse 1257 is the sync pulse of `body[0]`. -/
theorem test_wSkip4_end : nextIs (writeFromSkip4 cfg short { on with
      wr := { WriteCursor.zero with wstate := 4, wcnt := 3, wblen := 2, wcks := 9 } })
    (fun t => t.wr == { WriteCursor.zero with wstate := 8, wsync := true, wblen := 2, wcks := 9 }) = true := by
  decide

/-- P3: pulse 1254 is skipped whatever it is. -/
theorem test_wSkip4_count : nextIs (writeFromSkip4 cfg long (wrAt 4 0 false 0))
    (fun t => t.wr.wcnt == 1 && t.wr.wstate == 4) = true := by decide

/-- R207: the eighth bit of 0xFF stores `body[1]` and advances `tcount`. -/
theorem test_wBody_store : nextIs (writeFromBody cfg long { on with
      body := [(0, 0xA5#8)], tcount := 1
      wr := { WriteCursor.zero with
        wstate := 8, wcnt := 15, wsync := true, wsum := 11, wblen := 2, wbyte := 0x7F } })
    (fun t => t.body == img2Body && t.wr.wsum == 12 && t.tcount == 2 && t.wr.wsync == false) = true := by
  decide

/-- T33: a SHORT sync pulse is dropped like a LONG one. -/
theorem test_wBody_sync : nextIs (writeFromBody cfg short { on with
      wr := { WriteCursor.zero with wstate := 8, wblen := 1 } })
    (fun t => t.wr.wsync && t.wr.wcnt == 0 && t.wr.wbyte == 0) = true := by decide

/-- T35: `(5, 12, 13)`. -/
theorem test_wBodyCks_mismatch : nextIs (writeFromBodyCks cfg long { on with
      wr := { WriteCursor.zero with wstate := 9, wcnt := 15, wsync := true, wsum := 12, wcks := 6 } })
    (fun t => t.events == [.log .wBodyCksMismatch 12 13] && t.wr.wcks == 13) = true := by decide

/-- T37: the last pulse falls through 9 -> 10 -> 13 and raises PERSIST with an empty body. -/
theorem test_wBodyCks_end : nextIs (writeFromBodyCks cfg0 long (wrAt 9 16 false 400))
    (fun t => t.events == [.persist (List.replicate 128 0#8) [] 0] && t.motor == false
      && t.wr == WriteCursor.zero) = true := by decide +kernel

/-- P3: pulse 1293 is the skipped one. -/
theorem test_wSkip10_count : nextIs (writeFromSkip10 cfg short (wrAt 10 0 false 0))
    (fun t => t.wr.wcnt == 1 && t.wr.wstate == 10) = true := by decide

/-- P3: pulse 1294 persists IMG2 and resets the block. -/
theorem test_wSkip10_end : nextIs (writeFromSkip10 cfg long { on with
      header := img2Header, body := img2Body, tcount := 2
      wr := { WriteCursor.zero with wstate := 10, wcnt := 1, wsum := 12, wblen := 2, wcks := 12 } })
    (fun t => t.events == [.persist img2.header img2.body 2] && t.rd == ReadCursor.zero
      && t.wr == WriteCursor.zero && t.motor == false && t.sense == false && t.tcount == 2) = true := by
  decide +kernel

/-- T36: a SHORT stop pulse logs `(6, 0, 0)`, persists nothing and leaves the gates on. -/
theorem test_wStop_mismatch : nextIs (writeFromStop cfg short { wrAt 13 0 false 0 with tcount := 2 })
    (fun t => t.events == [.log .wStopMismatch 0 0] && t.wr == WriteCursor.zero && t.motor && t.sense
      && t.tcount == 2) = true := by decide

/-- R210: the payload is taken before the reset clears `wblen`. -/
theorem test_wStop_persist : nextIs (writeFromStop cfg long { on with
      body := img2Body, wr := { WriteCursor.zero with wstate := 13, wblen := 1 } })
    (fun t => t.events == [.persist (List.replicate 128 0#8) [0xA5#8] 1]) = true := by decide +kernel

/-- T39: `wstate` = 7 logs `(2, 7, 0)` and leaves the read cursor and the gates. -/
theorem test_wUnknown7 : nextIs (exec .wUnknown7
      { rdAt 2 9 false with wr := { WriteCursor.zero with wstate := 7, wcnt := 5 } })
    (fun t => t == { rdAt 2 9 false with events := [.log .wUnknownState 7 0] }) = true := by decide

/-- R211: code 14 is logged with its own value. -/
theorem test_wUnknown14 : nextIs (exec .wUnknown14 (wrAt 14 1 true 0))
    (fun t => t.events == [.log .wUnknownState 14 0] && t.wr == WriteCursor.zero) = true := by decide

-- ===== gates, RESET, PRELOAD =====

/-- T51: from (0, 1) the toggle gives (1, 0). -/
theorem test_senseToggle : nextIs (exec .senseToggle { State.reset with sense := true })
    (fun t => t.motor && t.sense == false) = true := by decide

/-- T50: each gate alone. -/
theorem test_set_gates :
    nextIs (exec (.setMotor true) State.reset) (fun t => t == { State.reset with motor := true }) = true ∧
    nextIs (exec (.setSense true) State.reset) (fun t => t == { State.reset with sense := true }) = true := by
  decide

/-- T38: RESET in the middle of a write spares the header buffer. -/
theorem test_reset : nextIs (exec .reset { wrAt 2 24 false 0 with header := img2Header, tcount := 3 })
    (fun t => t == { State.reset with header := img2Header, tcount := 3 }) = true := by decide

/-- T53: bytes of the body at and above the declared length keep their values. -/
theorem test_preload : nextIs (preload cfg { on with
      body := (List.range 16).map (fun i => (i, 9#8)), port := { now := 0, image := img2 } })
    (fun t => t.header == img2Header && t.body.bytes 4 == [0xA5#8, 0xFF#8, 9#8, 9#8] && t.rd == on.rd) = true := by
  decide +kernel

-- ===== the host's interface =====

/-- Words of every kind decode and run from reset. -/
theorem test_interface :
    decodeTableWord 8 0x10 = some .readBit ∧ decodeTableWord 8 0x21 = some (.writeBit true) ∧
    decodeTableWord 8 0x07 = some .rBodyPre ∧ decodeTableWord 8 0x31 = none ∧
    nextIs (step (State.reset.withFetchWord 8 0x51)) (fun t => t.motor) = true ∧
    nextIs (step (State.reset.withFetchWord 8 0x0D)) (fun t => t.motor == false && t.rdData == some true)
      = true := by decide

/-- R112: an invalid word is refused. -/
theorem test_invalid_word : step (State.reset.withFetchWord 8 0xFF) = .refused (.notAnOperation 0xFF#8) :=
  rfl

-- ===== witnesses: states and operands that meet the hypotheses of the obligations =====

theorem machine_bodyMax_pos : 0 < Config.machine.bodyMax := Config.machine_wellFormed.body_pos

/-- The next operation is `cmd`, at clock value `t`. -/
def State.awaiting (s : State) (cmd : Byte) (t : Time) : State :=
  { s with queue := [{ cmd := cmd, side := { SideInput.zero with now := t } }] }

/-- A pulse whose interval is classified as `p` by a threshold of 400. -/
def timed (p : Bit) : Time × Time := (0, if p then 400 else 0)

/-- Timed pulses are classified as the symbols they were made from. -/
theorem timed_symbols (c : Config) (h : c.wThreshUs = 400) (ps : List Bit) :
    pulseSymbols c (ps.map timed) = ps := by
  have hp : ∀ p : Bit, classify c ((timed p).2 - (timed p).1) = p := by
    intro p
    rw [classify, h]
    cases p <;> decide
  induction ps with
  | nil => rfl
  | cons p ps ih =>
    change classify c ((timed p).2 - (timed p).1) :: pulseSymbols c (ps.map timed) = _
    rw [ih, hp]

theorem reset_buffersLegal (c : Config) : State.reset.BuffersLegal c := ⟨rfl, rfl, rfl, rfl⟩

/-- DecodingAndEncodingAgree. -/
theorem witness_DecodingAndEncodingAgree :
    (Instr.writeBit true).wellFormed = true ∧
    decode .command [0x61#8, 0x55#8] = .ok (.setSense true, [0x55#8]) ∧
    decode .writeState [0x0F#8, 0x55#8] = .ok (.wUnknown15, [0x55#8]) := ⟨rfl, rfl, rfl⟩

/-- PreamblesAreGapMarkAndLong, also with tape marks of no pulses. -/
theorem witness_PreamblesAreGapMarkAndLong :
    (cfg.btm % 2 = 0 ∧ cfg.stm % 2 = 0) ∧ { cfg with btm := 0 }.btm % 2 = 0 := by decide

/-- StreamLengthsAreAsComputed, with the shortest and the longest body. -/
theorem witness_StreamLengthsAreAsComputed : ∀ n : Half, n = 0 ∨ n = 65535 →
    ∃ header body skip4 skip10, header.length = 128 ∧ n.toNat = (body : List Byte).length ∧
      (skip4 : List Bit).length = Config.machine.wSkip4 ∧
      (skip10 : List Bit).length = Config.machine.wSkip10 n ∧ (header : List Byte) ≠ [] :=
  fun n _ => ⟨List.replicate 128 0, List.replicate n.toNat 0, List.replicate Config.machine.wSkip4 short,
    List.replicate (Config.machine.wSkip10 n) short, by simp, by simp, by simp, by simp, by simp⟩

/-- ImageFileIsHeaderThenBody, with an empty and with a whole image. -/
theorem witness_ImageFileIsHeaderThenBody :
    imageConsistent Config.machine img2 = true ∧
    imageConsistent Config.machine SideInput.zero.image = true := by decide +kernel

/-- StepExecutesTheOldestOperation. -/
theorem witness_StepExecutesTheOldestOperation :
    (State.awaiting on 0x10#8 7).queue = ⟨0x10#8, { SideInput.zero with now := 7 }⟩ :: [] ∧
    decode .command [0x10#8] = .ok (.readBit, []) := ⟨rfl, rfl⟩

/-- StepWithoutAnOperation, both clauses. -/
theorem witness_StepWithoutAnOperation :
    on.queue = [] ∧ (State.awaiting on 0x31#8 7).queue = ⟨0x31#8, { SideInput.zero with now := 7 }⟩ :: [] ∧
    decodeCommand 0x31#8 = none := ⟨rfl, rfl, rfl⟩

/-- PlacedWordIsExecutedNext, both clauses. -/
theorem witness_PlacedWordIsExecutedNext :
    (Instr.writeBit true).space = .command ∧ Instr.rUnknown15.space = .readState := ⟨rfl, rfl⟩

/-- ReadBitFollowsItsThreeItems, each item and each phase. -/
theorem witness_ReadBitFollowsItsThreeItems :
    State.reset.motor = false ∧
    (∃ s : State, s.motor = true ∧ s.sense = true ∧ s.wr.wstate ≠ 0) ∧
    (∀ ph : Phase, ∃ s : State, s.motor = true ∧ s.sense = false ∧ s.wr.wstate ≠ 0 ∧ s.rd.rphase = ph) ∧
    (∀ ph : Phase, ∃ s : State, s.motor = true ∧ s.sense = true ∧ s.wr.wstate = 0 ∧ s.rd.rphase = ph) :=
  ⟨rfl, ⟨wrAt 2 15 true 0, rfl, rfl, by decide⟩,
    fun ph => ⟨{ wrAt 2 15 true 0 with sense := false, rd := { ReadCursor.zero with rphase := ph } },
      rfl, rfl, (by decide : (2 : Code) ≠ 0), rfl⟩,
    fun ph => ⟨{ on with rd := { ReadCursor.zero with rphase := ph } }, rfl, rfl, rfl, rfl⟩⟩

/-- WriteBitFollowsGateAndEdges, each clause. -/
theorem witness_WriteBitFollowsGateAndEdges :
    State.reset.motor = false ∧ { on with sense := false }.sense = false ∧
    (on.motor = true ∧ on.sense = true ∧ on.wr.wline = false) ∧
    (∀ b : Bit, ∃ s : State, s.motor = true ∧ s.sense = true ∧ s.wr.wline = b) :=
  ⟨rfl, rfl, ⟨rfl, rfl, rfl⟩,
    fun b => ⟨{ on with wr := { WriteCursor.zero with wline := b } }, rfl, rfl, rfl⟩⟩

/-- PreloadReplacesTheBuffers, with an empty body and with one byte. -/
theorem witness_PreloadReplacesTheBuffers : ∀ d : List Byte, d.length ≤ 1 → ∃ (s : State) (h : List Byte),
    s.BuffersLegal Config.machine ∧ s.port.image = ⟨h, d⟩ ∧ h.length = 128 ∧
      d.length = (h.getD 18 0).toNat + 256 * (h.getD 19 0).toNat ∧ d.length ≤ Config.machine.bodyMax := by
  intro d hd
  refine ⟨{ on with port := { now := 0, image := ⟨Memory.bytes [(18, BitVec.ofNat 8 d.length)] 128, d⟩ } },
    _, ⟨rfl, rfl, rfl, rfl⟩, rfl, rfl, ?_, le_trans hd machine_bodyMax_pos⟩
  match d, hd with
  | [], _ => rfl
  | [_], _ => rfl

/-- PreloadIsRefusedOutsideItsDomain, both clauses. -/
theorem witness_PreloadIsRefusedOutsideItsDomain :
    ¬ (([] : List Byte).length = cfg.hdrBytes ∧ ([] : List Byte).length = (imageLength cfg []).toNat) ∧
    ∃ h d : List Byte, h.length = cfg.hdrBytes ∧ d.length = (imageLength cfg h).toNat ∧
      cfg.bodyMax < d.length :=
  ⟨by decide, Memory.bytes [(18, 17#8)] 128, List.replicate 17 0, rfl, rfl, by decide⟩

/-- ByteFrameSendsSyncThenBits: the first sync pulse, the first and the last data bit of a byte, the
next sync pulse. -/
theorem witness_ByteFrameSendsSyncThenBits :
    [rdAt 2 0 false, rdAt 2 0 true, rdAt 2 7 true, rdAt 2 8 false].map
      (fun s => decide (s.rd.rcnt.toNat % 8 = 0 ∧ s.rd.rsync = false)) = [true, false, false, true] := by
  decide

/-- ReadPreambleSendsItsPulses, ReadBodyPreambleSendsItsPulses, ReadHeaderSendsTheHeader,
ReadHeaderChecksumSendsItsBytes, ReadBodyChecksumSendsItsBytes: both sides of each handler's length. -/
theorem witness_read_handlers :
    (rdAt 1 200 false).rd.rcnt.toNat < 201 ∧ 201 ≤ (rdAt 1 201 false).rd.rcnt.toNat ∧
    (rdAt 7 161 false).rd.rcnt.toNat < 162 ∧ 162 ≤ (rdAt 7 162 false).rd.rcnt.toNat ∧
    (rdAt 2 1023 true).rd.rcnt.toNat < 1024 ∧ 1024 ≤ (rdAt 2 1024 false).rd.rcnt.toNat ∧
    (rdAt 3 15 true).rd.rcnt.toNat < 16 ∧ 16 ≤ (rdAt 3 16 false).rd.rcnt.toNat ∧
    (rdAt 9 15 true).rd.rcnt.toNat < 16 ∧ 16 ≤ (rdAt 9 16 false).rd.rcnt.toNat := by decide

/-- ReadBodySendsTheBody: a byte inside the buffer, one at `BODY_MAX`, the end of the body. -/
theorem witness_ReadBodySendsTheBody :
    (∃ s : State, s.rd.rcnt.toNat < 8 * s.rd.rblen.toNat ∧ s.rd.rcnt.toNat / 8 < Config.machine.bodyMax) ∧
    (∃ s : State, s.rd.rcnt.toNat < 8 * s.rd.rblen.toNat ∧ cfg.bodyMax ≤ s.rd.rcnt.toNat / 8) ∧
    ∃ s : State, s.rd.rblen ≠ 0 ∧ 8 * s.rd.rblen.toNat ≤ s.rd.rcnt.toNat :=
  ⟨⟨{ on with rd := { ReadCursor.zero with rstate := 8, rcnt := 7, rblen := 1 } }, by decide,
      machine_bodyMax_pos⟩,
    ⟨{ on with rd := { ReadCursor.zero with rstate := 8, rcnt := 128, rblen := 17 } }, by decide, by decide⟩,
    ⟨{ on with rd := { ReadCursor.zero with rstate := 8, rcnt := 8, rblen := 1 } }, by decide, by decide⟩⟩

/-- UnknownReadStateLogsAndResets, UnknownWriteStateLogsAndResets. -/
theorem witness_unknown_states :
    Instr.rUnknown15 ∈ [Instr.rUnknown4, .rUnknown5, .rUnknown6, .rUnknown10, .rUnknown11, .rUnknown12,
      .rUnknown14, .rUnknown15] ∧
    Instr.wUnknown5 ∈ [Instr.wUnknown5, .wUnknown6, .wUnknown7, .wUnknown11, .wUnknown12, .wUnknown14,
      .wUnknown15] := by decide

/-- A write state whose pulse in hand is `p`. -/
theorem witness_pulse : ∀ p : Bit, ∃ s : State, pulseInHand Config.machine s = p
  | true => ⟨wrAt 1 0 false 400, by rw [pulseInHand, classify, if_neg]; decide⟩
  | false => ⟨wrAt 1 0 false 399, by rw [pulseInHand, classify, if_pos]; decide⟩

/-- WritePreambleChecksEveryPulse: the first position, and the end of the preamble. -/
theorem witness_WritePreambleChecksEveryPulse :
    (wrAt 1 0 false 0).wr.wcnt.toNat < Config.machine.wPreLen ∧
    ∃ s : State, Config.machine.wPreLen ≤ s.wr.wcnt.toNat :=
  ⟨by show 0 < Config.machine.wPreLen; simp only [Config.wPreLen]; omega,
    wrAt 1 (BitVec.ofNat 32 Config.machine.wPreLen) false 0, by
      show _ ≤ (BitVec.ofNat 32 Config.machine.wPreLen).toNat
      rw [BitVec.toNat_ofNat, Nat.mod_eq_of_lt Config.machine_wellFormed.wpre_count]⟩

/-- WriteHeaderRebuildsTheHeader, WriteChecksumsAreComparedAtTheSixteenthBit: the sync pulse, the first
and the eighth data bit of the last byte, the end of the section. -/
theorem witness_write_frames :
    ((wrAt 2 1016 false 0).wr.wcnt.toNat < 1024 ∧ (wrAt 2 1016 false 0).wr.wcnt.toNat % 8 = 0) ∧
    ((wrAt 2 1016 true 0).wr.wcnt.toNat < 1024 ∧ ((wrAt 2 1016 true 0).wr.wcnt.toNat + 1) % 8 ≠ 0) ∧
    ((wrAt 2 1023 true 0).wr.wcnt.toNat < 1024 ∧ ((wrAt 2 1023 true 0).wr.wcnt.toNat + 1) % 8 = 0) ∧
    1024 ≤ (wrAt 2 1024 false 0).wr.wcnt.toNat ∧
    ((wrAt 3 8 false 0).wr.wcnt.toNat < 16 ∧ (wrAt 3 8 false 0).wr.wcnt.toNat % 8 = 0) ∧
    ((wrAt 3 15 true 0).wr.wcnt.toNat < 16 ∧ (wrAt 3 15 true 0).wr.wcnt = 15) ∧
    16 ≤ (wrAt 3 16 false 0).wr.wcnt.toNat := by decide

/-- WriteSkip4CountsThenEntersTheBody, WriteSkip10CountsThenStops: the end of each skip, with a pulse of
either symbol, and a pulse that is skipped. -/
theorem witness_write_skips :
    (∃ s : State, Config.machine.wSkip4 ≤ s.wr.wcnt.toNat) ∧
    (wrAt 10 0 false 0).wr.wcnt.toNat < cfg.wSkip10 (wrAt 10 0 false 0).wr.wblen ∧
    ∀ p : Bit, ∃ s : State, Config.machine.wSkip10 s.wr.wblen ≤ s.wr.wcnt.toNat ∧
      pulseInHand Config.machine s = p ∧ s.wr.wblen.toNat ≤ Config.machine.bodyMax := by
  have h4 := Config.machine_wellFormed.skip4_count
  have h10 : Config.machine.wSkip10 0 ≤ 4294967295 := Nat.le_of_lt_succ
    (Config.machine_wellFormed.skip10_count 0)
  refine ⟨⟨wrAt 4 0xFFFFFFFF false 0, by show _ ≤ 4294967295; omega⟩, by decide, ?_⟩
  rintro (_ | _)
  · exact ⟨wrAt 10 0xFFFFFFFF false 399, h10, by rw [pulseInHand, classify, if_pos]; decide, Nat.zero_le _⟩
  · exact ⟨wrAt 10 0xFFFFFFFF false 400, h10, by rw [pulseInHand, classify, if_neg]; decide, Nat.zero_le _⟩

/-- WriteBodyRebuildsTheBody: sync pulse, a data bit, an eighth bit inside the buffer and one at
`BODY_MAX`, the end of the body. -/
theorem witness_WriteBodyRebuildsTheBody : ∃ s : Count → Half → State,
    (∀ n k, (s n k).wr.wcnt = n ∧ (s n k).wr.wblen = k) ∧
    ((s 0 1).wr.wcnt.toNat < 8 * (s 0 1).wr.wblen.toNat ∧ (s 0 1).wr.wcnt.toNat % 8 = 0
      ∧ (s 0 1).wr.wsync = false) ∧
    ((s 6 1).wr.wcnt.toNat < 8 * (s 6 1).wr.wblen.toNat ∧ ((s 6 1).wr.wcnt.toNat + 1) % 8 ≠ 0) ∧
    ((s 7 1).wr.wcnt.toNat < 8 * (s 7 1).wr.wblen.toNat ∧ ((s 7 1).wr.wcnt.toNat + 1) % 8 = 0 ∧
      ((s 7 1).wr.wcnt.toNat + 1) / 8 - 1 < Config.machine.bodyMax) ∧
    ((s 135 17).wr.wcnt.toNat < 8 * (s 135 17).wr.wblen.toNat ∧ ((s 135 17).wr.wcnt.toNat + 1) % 8 = 0 ∧
      cfg.bodyMax ≤ ((s 135 17).wr.wcnt.toNat + 1) / 8 - 1) ∧
    8 * (s 8 1).wr.wblen.toNat ≤ (s 8 1).wr.wcnt.toNat :=
  ⟨fun n k => { on with wr := { WriteCursor.zero with wstate := 8, wcnt := n, wblen := k } },
    fun _ _ => ⟨rfl, rfl⟩, by decide, by decide, ⟨by decide, by decide, machine_bodyMax_pos⟩, by decide,
    by decide⟩

/-- WriteStopPersistsOrGivesUp: a length that fits, and one that does not. -/
theorem witness_WriteStopPersistsOrGivesUp :
    (∃ s : State, pulseInHand Config.machine s = long ∧ s.wr.wblen = 1 ∧
      s.wr.wblen.toNat ≤ Config.machine.bodyMax) ∧
    ∃ s : State, cfg.bodyMax < s.wr.wblen.toNat :=
  ⟨⟨{ wrAt 13 0 false 400 with wr := { WriteCursor.zero with wstate := 13, wblen := 1 } },
      by rw [pulseInHand, classify, if_neg]; decide, rfl, machine_bodyMax_pos⟩,
    ⟨{ on with wr := { WriteCursor.zero with wblen := 17 } }, by decide⟩⟩

/-- FittingLengthsNeverFault. -/
theorem witness_FittingLengthsNeverFault : ∃ s : State, s.rd.rblen = 1 ∧ s.wr.wblen = 1 ∧
    s.rd.rblen.toNat ≤ Config.machine.bodyMax ∧ s.wr.wblen.toNat ≤ Config.machine.bodyMax :=
  ⟨{ on with rd := { ReadCursor.zero with rblen := 1 }, wr := { WriteCursor.zero with wblen := 1 } },
    rfl, rfl, machine_bodyMax_pos, machine_bodyMax_pos⟩

/-- HistoryOnlyGrowsByOneEvent, ReadSideFrame: next states with and without an event. -/
theorem witness_ReadSideFrame :
    (∃ t, exec .readBit on = .next t) ∧ (∃ t, exec .rUnknown5 (rdAt 5 0 false) = .next t) ∧
    (∃ t, exec .rStop (rdAt 13 0 false) = .next t) := ⟨⟨_, rfl⟩, ⟨_, rfl⟩, ⟨_, rfl⟩⟩

/-- WriteSideFrame: a rising edge, a violation, a completed write. -/
theorem witness_WriteSideFrame :
    (∃ t, exec (.writeBit true) on = .next t) ∧ (∃ t, exec .wUnknown5 (wrAt 5 0 false 0) = .next t) ∧
    (∃ t, exec .wStop (wrAt 13 0 false 400) = .next t) := by
  refine ⟨⟨_, rfl⟩, ⟨_, rfl⟩, ?_⟩
  have hp : pulseInHand Config.machine (wrAt 13 0 false 400) = long := by
    rw [pulseInHand, classify, if_neg]; decide
  refine ⟨((wrAt 13 0 false 400).persist Config.machine).resetAll, ?_⟩
  rw [exec_wStop, hp]
  exact writeFromStop_long (Nat.zero_le _)

/-- WriteHandlersStoreOneByteOnly: a storing pulse of each buffer, a pulse that stores nothing, and the
three ways a WRITE_BIT stores nothing. -/
theorem witness_WriteHandlersStoreOneByteOnly :
    (∃ t, exec .wHeader (wrAt 2 7 true 0) = .next t) ∧
    (∃ s t, s.wr.wcnt = 7 ∧ exec .wBody s = .next t) ∧
    (∃ t, exec .wUnknown6 on = .next t) ∧
    State.reset.motor = false ∧ { on with sense := false }.sense = false ∧ on.wr.wline = false := by
  let s : State := { on with wr := { WriteCursor.zero with
    wstate := 8, wcnt := 7, wsync := true, wblen := 1 } }
  have hi : (s.wr.wcnt + 1).toNat / 8 - 1 < Config.machine.bodyMax :=
    lt_of_eq_of_lt (by decide) machine_bodyMax_pos
  have hb := writeFromBody_store (p := pulseInHand Config.machine s) (s := s) (by decide) (by decide)
    (by decide) hi
  exact ⟨⟨_, rfl⟩, ⟨s, _, rfl, hb⟩, ⟨_, rfl⟩, rfl, rfl, rfl⟩

/-- TapeCounterCountsBodyBytes on the read side: an advancing call from Idle, one at the last bit of a
body byte, and one that is neither. -/
theorem witness_TapeCounterCountsBodyBytes_read : ∃ s1 s2 s3 : State,
    (s1.advancingCall ∧ s1.rd.rstate = 0 ∧ ∃ t, step s1 = .next t) ∧
    (s2.advancingCall ∧ s2.rd.atLastBodyBit ∧ ∃ t, step s2 = .next t) ∧
    (s3.advancingCall ∧ ¬ (s3.rd.rstate = 0 ∨ s3.rd.atLastBodyBit) ∧ ¬ s3.acceptedFallingEdge ∧
      ∃ t, step s3 = .next t) := by
  let at8 (n : Count) : State := State.awaiting
    { on with rd := ⟨8, .data, n, true, 0, 1, 0⟩ } 0x10#8 0
  have h8 (n : Count) (hn : n.toNat < 8) : ∃ t, step (at8 n) = .next t := by
    have hb : ¬ Config.machine.bodyMax ≤ n.toNat / 8 := by have := machine_bodyMax_pos; omega
    have hlt : n.toNat < 8 * (1 : Half).toNat := hn
    exact ⟨_, (congrArg (fun u : Turn => u.andThen (readFromBodyCks Config.machine))
      ((if_pos hlt).trans (if_neg hb))).trans rfl⟩
  exact ⟨State.awaiting { on with rd := { ReadCursor.zero with rphase := .data } } 0x10#8 0, at8 7, at8 6,
    ⟨⟨rfl, rfl, .inr rfl, rfl⟩, rfl, _, rfl⟩,
    ⟨⟨rfl, rfl, .inr rfl, rfl⟩, ⟨rfl, by decide, rfl⟩, h8 7 (by decide)⟩,
    ⟨rfl, rfl, .inr rfl, rfl⟩, by rintro (h | ⟨_, _, h⟩) <;> revert h <;> decide,
    fun h => by have := h.1; revert this; decide, h8 6 (by decide)⟩

/-- TapeCounterCountsBodyBytes on the write side: the same three falling edges. -/
theorem witness_TapeCounterCountsBodyBytes_write : ∃ s1 s2 s3 : State,
    (s1.acceptedFallingEdge ∧ s1.wr.wstate = 0 ∧ ∃ t, step s1 = .next t) ∧
    (s2.acceptedFallingEdge ∧ s2.wr.atLastBodyBit ∧ ∃ t, step s2 = .next t) ∧
    (s3.acceptedFallingEdge ∧ ¬ (s3.wr.wstate = 0 ∨ s3.wr.atLastBodyBit) ∧ ¬ s3.advancingCall ∧
      ∃ t, step s3 = .next t) := by
  let at8 (n : Count) : State := State.awaiting
    { on with wr := ⟨8, n, true, 0, 1, 0, 0, true, 0⟩ } 0x20#8 0
  let u (n : Count) : State := ((at8 n).accept { SideInput.zero with now := 0 } []).setWr
    { (at8 n).wr with wline := false }
  let i : State := State.awaiting { on with wr := { WriteCursor.zero with wline := true } } 0x20#8 0
  have h0 : ∃ t, step i = .next t := ⟨_, writeFromIdle_eq Config.machine _
    ((i.accept { SideInput.zero with now := 0 } []).setWr { i.wr with wline := false })⟩
  have h7 : ∃ t, step (at8 7) = .next t := ⟨_, writeFromBody_store (s := u 7)
    (p := pulseInHand Config.machine (u 7)) (by decide) (by decide) (by decide)
    (lt_of_eq_of_lt (by decide) machine_bodyMax_pos)⟩
  have h6 : ∃ t, step (at8 6) = .next t := ⟨_, rfl⟩
  exact ⟨i, at8 7, at8 6, ⟨⟨rfl, rfl, rfl, rfl⟩, rfl, h0⟩,
    ⟨⟨rfl, rfl, rfl, rfl⟩, ⟨rfl, by decide, rfl⟩, h7⟩,
    ⟨rfl, rfl, rfl, rfl⟩, by rintro (h | ⟨_, _, h⟩) <;> revert h <;> decide,
    fun h => by have := h.1; revert this; decide, h6⟩

/-- OnlyGateOperationsSetAGate. -/
theorem witness_OnlyGateOperationsSetAGate :
    ∃ t, exec .senseToggle State.reset = .next t ∧ State.reset.motor = false ∧ t.motor = true :=
  ⟨_, rfl, rfl, rfl⟩

/-- IdleReadsReturnOneAndChangeNothing, both clauses. -/
theorem witness_IdleReadsReturnOneAndChangeNothing :
    ({ rdAt 2 9 true with motor := false }.motor = false) ∧
    ((wrAt 2 15 true 0).motor = true ∧ (wrAt 2 15 true 0).sense = true ∧ (wrAt 2 15 true 0).wr.wstate ≠ 0) :=
  ⟨rfl, rfl, rfl, by decide⟩

/-- PersistOnlyAtTheEndOfAWholeWrite: the step of the stop pulse. -/
theorem witness_PersistOnlyAtTheEndOfAWholeWrite : ∃ (s t : State) (h b : List Byte) (n : Half),
    step s = .next t ∧ t.events = s.events ++ [.persist h b n] := by
  let s : State := State.awaiting { on with wr := { WriteCursor.zero with wstate := 13, wline := true } }
    0x20#8 400
  let u : State := (s.accept { SideInput.zero with now := 400 } []).setWr
    { s.wr with wline := false }
  have hp : pulseInHand Config.machine u = long := by rw [pulseInHand, classify, if_neg]; decide
  have hs : step s = .next (u.persist Config.machine).resetAll := by
    rw [step_of_queue (s := s) rfl (show decodeCommand 0x20#8 = some (.writeBit false) from rfl)]
    change writePulse Config.machine (pulseInHand Config.machine u) u = _
    rw [hp]
    exact writeFromStop_long (Nat.zero_le _)
  exact ⟨s, _, _, _, _, hs, rfl⟩

/-- BuffersStayLegal: an instruction that stores. -/
theorem witness_BuffersStayLegal : State.reset.BuffersLegal Config.machine ∧
    ∃ t, exec .wHeader { wrAt 2 7 true 0 with header := [] } = .next t :=
  ⟨reset_buffersLegal _, _, rfl⟩

/-- EveryStepKeepsTheStateLegal: a step of an operation from a legal state. -/
theorem witness_EveryStepKeepsTheStateLegal :
    (State.awaiting on 0x10#8 0).Legal Config.machine ∧ ∃ t, step (State.awaiting on 0x10#8 0) = .next t :=
  ⟨⟨⟨.inl rfl, fun h => (by cases h), Nat.le_refl _, fun _ _ => rfl⟩,
      ⟨.inl rfl, fun h => (by cases h), Nat.le_refl _, fun _ _ => rfl⟩, ⟨rfl, rfl, rfl, rfl⟩⟩, _, rfl⟩

/-- CompleteReadPlaysTheStream, with an empty body and with a body of one byte. -/
theorem witness_CompleteReadPlaysTheStream : ∀ m : Memory, m = [] ∨ m = [(18, 1#8)] →
    ∃ (s : State) (h b : List Byte), s.header = m ∧ h = s.header.bytes 128 ∧ b = s.body.bytes b.length ∧
      b.length = (h.getD 18 0).toNat + 256 * (h.getD 19 0).toNat ∧ b.length ≤ Config.machine.bodyMax ∧
      s.motor = true ∧ s.wr.wstate = 0 ∧ s.rd = ReadCursor.zero := by
  rintro m (rfl | rfl)
  · exact ⟨on, _, [], rfl, rfl, rfl, rfl, Nat.zero_le _, rfl, rfl, rfl⟩
  · exact ⟨{ on with header := [(18, 1#8)] }, _, [0], rfl, rfl, rfl, rfl, machine_bodyMax_pos, rfl, rfl, rfl⟩

/-- An image of one byte and its stream under any parameters the streams are said of. -/
theorem witness_image (c : Config) (hl : c.lenOff = 18) (hh : c.hdrBytes = 128) (hb : 1 ≤ c.bodyMax) :
    ∃ h b : List Byte, b ≠ [] ∧ h.length = c.hdrBytes ∧ b.length = (imageLength c h).toNat ∧
      b.length ≤ c.bodyMax :=
  ⟨Memory.bytes [(18, 1#8)] 128, [0x80#8], by decide, by rw [hh]; rfl, by rw [imageLength, hl]; rfl, hb⟩

/-- WriterAcceptsItsFormat. -/
theorem witness_WriterAcceptsItsFormat : ∃ (h b : List Byte) (skip4 skip10 : List Bit)
    (ts : List (Time × Time)), cfg.WellFormed ∧ b ≠ [] ∧ h.length = cfg.hdrBytes ∧
      b.length = (imageLength cfg h).toNat ∧ b.length ≤ cfg.bodyMax ∧ skip4.length = cfg.wSkip4 ∧
      skip10.length = cfg.wSkip10 (imageLength cfg h) ∧
      pulseSymbols cfg ts = writeStream cfg h b skip4 skip10 ∧ on.BuffersLegal cfg ∧
      on.motor = true ∧ on.sense = true ∧ on.wr = WriteCursor.zero := by
  obtain ⟨h, b, hb, h1, h2, h3⟩ := witness_image cfg rfl rfl (by decide)
  exact ⟨h, b, [long, short, long], [short], _, test_cfg_wellFormed, hb, h1, h2, h3, rfl, rfl,
    timed_symbols cfg rfl _, ⟨rfl, rfl, rfl, rfl⟩, rfl, rfl, rfl⟩

/-- RoundTripUnderTheReadersParameters: the parameters RT. -/
theorem witness_RoundTripUnderTheReadersParameters : ∃ (h b : List Byte) (ts : List (Time × Time)),
    cfgRT.WellFormed ∧ cfgRT.wbgapL = cfgRT.rBgap ∧ cfgRT.wSkip4 = cfgRT.rBpreLen ∧
      (∀ n, cfgRT.wSkip10 n = 0) ∧ b ≠ [] ∧ h.length = cfgRT.hdrBytes ∧
      b.length = (imageLength cfgRT h).toNat ∧ b.length ≤ cfgRT.bodyMax ∧
      pulseSymbols cfgRT ts = readStream cfgRT h b ∧ on.BuffersLegal cfgRT ∧ on.motor = true ∧
      on.sense = true ∧ on.wr = WriteCursor.zero := by
  obtain ⟨h, b, hb, h1, h2, h3⟩ := witness_image cfgRT rfl rfl (by decide)
  exact ⟨h, b, _, Config.withOpen_wellFormed _, rfl, rfl, fun _ => rfl, hb, h1, h2, h3,
    timed_symbols cfgRT rfl _, ⟨rfl, rfl, rfl, rfl⟩, rfl, rfl, rfl⟩

/-- FirstMismatchIsWhereTheGapsDiffer: a longer and a shorter gap, both next to `R_BGAP`, no gap, and
the suggested 22000. -/
theorem witness_FirstMismatchIsWhereTheGapsDiffer :
    (∀ c : Config, c = cfgLong ∨ c = Config.withOpen ⟨121, 0, fun _ => 0, 0⟩ →
      c.WellFormed ∧ 2 ≤ c.btm ∧ c.rBgap < c.wbgapL ∧
        ∃ ts, pulseSymbols c ts = (bigPreamble c).take (c.rBgap + 1)) ∧
    (∀ c : Config, c = cfg0 ∨ c = Config.withOpen ⟨119, 0, fun _ => 0, 0⟩ →
      c.WellFormed ∧ 2 ≤ c.btm ∧ c.wbgapL < c.rBgap ∧
        ∃ ts, pulseSymbols c ts = (bigPreamble c).take (c.wbgapL + 1)) := by
  refine ⟨?_, ?_⟩ <;> rintro c (rfl | rfl) <;>
    exact ⟨Config.withOpen_wellFormed _, by decide, by decide, _, timed_symbols _ rfl _⟩

end Sys2Proof.Tests
end

section
/-!
The lengths of the two complete streams, for every configuration, and R9's sum at the defaults
(00_scope.md R9, 30_encoding.md R101, R102, 42_write_fsm.md R212).
-/
namespace Sys2Proof.Machine

/-- R9: the sum of a read's sections at the defaults. -/
theorem machine_readPulses (n : Nat) : Config.machine.readPulses n = 1552 + 9 * n := by
  simp only [Config.readPulses, Config.hdrPulses, Config.cksPulses, Config.byteFrame,
    Config.machine_rPreLen, Config.machine_rBpreLen, Config.machine_hdrBytes]
  omega

/-- R101: the complete stream of a read has the pulses of its sections. -/
theorem readStream_length {c : Config} {header : List Byte} (body : List Byte)
    (hh : header.length = c.hdrBytes) :
    (readStream c header body).length = c.readPulses body.length := by
  simp only [readStream, List.length_append, bigPreamble_length, sectionFrames_length,
    checksumFrames_length, bodyPreamble_length, hh]
  rfl

/-- R102, R212: a stream of the writer's format has the pulses of its sections and of its two skips. -/
theorem writeStream_length {c : Config} {header body : List Byte} {n : Half} {skip4 skip10 : List Bit}
    (hh : header.length = c.hdrBytes) (hn : n.toNat = body.length)
    (h4 : skip4.length = c.wSkip4) (h10 : skip10.length = c.wSkip10 n) :
    (writeStream c header body skip4 skip10).length = c.writePulses n := by
  simp only [writeStream, List.length_append, writePreamble_length, sectionFrames_length,
    checksumFrames_length, hh, h4, h10, ← hn]
  rfl

/-- Settles O5: both streams are as long as the sum of their sections, taken at the defaults. -/
theorem streamLengthsAreAsComputed : Obligations.StreamLengthsAreAsComputed := by
  intro header body hh
  refine ⟨?_, fun n skip4 skip10 hn h4 h10 => writeStream_length hh hn h4 h10⟩
  calc (readStream Config.machine header body).length
      = Config.machine.readPulses body.length := readStream_length body hh
    _ = 1552 + 9 * body.length := machine_readPulses body.length

end Sys2Proof.Machine
end

section
/-!
A step as the decoded oldest operation (10_state.md R20, 30_encoding.md R112), and what one operation
of each side leaves unchanged: READ_BIT with the read handlers, WRITE_BIT with the write handlers, the
gate operations (10_state.md R30, R31, R34, R50).
-/
namespace Sys2Proof.Machine

/-- A word decoded in the command space is `decodeCommand` of it. -/
theorem decode_command_eq_ok {cmd : Byte} {i : Instr} :
    decode .command [cmd] = .ok (i, []) ↔ decodeCommand cmd = some i := by
  cases h : decodeCommand cmd <;> simp [decode, h]

/-- Settles O8: the fetch takes the head of the queue and `State.accept` is the state it runs in. -/
theorem stepExecutesTheOldestOperation : Obligations.StepExecutesTheOldestOperation := by
  intro s inp rest i hq hd
  exact step_of_queue hq (decode_command_eq_ok.1 hd)

/-- READ_BIT and the read state handlers. -/
def readSide (i : Instr) : Prop := i = .readBit ∨ i.space = .readState

/-- WRITE_BIT and the write state handlers. -/
def writeSide (i : Instr) : Prop := (∃ b, i = .writeBit b) ∨ i.space = .writeState

/-- The three operations that may set a gate (10_state.md R30, R31). -/
def gateOp (i : Instr) : Prop :=
  (∃ b, i = .setMotor b) ∨ (∃ b, i = .setSense b) ∨ i = .senseToggle

/-- Every instruction belongs to one side, is a gate operation, RESET or PRELOAD. -/
theorem instr_sides (i : Instr) :
    readSide i ∨ writeSide i ∨ gateOp i ∨ i = .reset ∨ i = .preload := by
  cases i <;> simp [readSide, writeSide, gateOp, Instr.space]

/-- What an operation of the read side leaves unchanged, and how R.STOP and R.UNKNOWN depart from it
(10_state.md R50, 41_read_fsm.md R179, R180). -/
structure ReadFrame (s t : State) : Prop where
  inputs : s.sameInputs t
  header : t.header = s.header
  body   : t.body = s.body
  gates  : (t.wr = s.wr ∧ t.motor = s.motor ∧ t.sense = s.sense) ∨
    (t.rd = ReadCursor.zero ∧ t.wr = WriteCursor.zero ∧ t.motor = false ∧ t.sense = false)
  events : t.events = s.events ∨
    (t.rd = ReadCursor.zero ∧
      t.events = s.events ++ [.log .rUnknownState (s.rd.rstate.setWidth 32) 0])

theorem ReadEffect.frame {s t : State} (h : ReadEffect s t) : ReadFrame s t := by
  obtain ⟨rd, n, v, rfl⟩ | rfl := h
  · exact ⟨⟨rfl, rfl⟩, rfl, rfl, .inl ⟨rfl, rfl, rfl⟩, .inl rfl⟩
  · exact ⟨⟨rfl, rfl⟩, rfl, rfl, .inr ⟨rfl, rfl, rfl, rfl⟩, .inl rfl⟩

theorem rUnknown_frame (s : State) : ReadFrame s (rUnknown s) :=
  ⟨⟨rfl, rfl⟩, rfl, rfl, .inl ⟨rfl, rfl, rfl⟩, .inr ⟨rfl, rfl⟩⟩

/-- Every read handler, whatever the state. -/
theorem exec_readState_frame {i : Instr} {s t : State} (hi : i.space = .readState)
    (h : exec i s = .next t) : ReadFrame s t := by
  obtain he | rfl := exec_read_cases hi h
  · exact he.frame
  · exact rUnknown_frame s

/-- The frame does not see the phase READ_BIT writes before it enters the handler. -/
theorem ReadFrame.of_phase {s t : State} {ph : Phase}
    (h : ReadFrame (s.setRd { s.rd with rphase := ph }) t) : ReadFrame s t :=
  ⟨h.inputs, h.header, h.body, h.gates, h.events⟩

theorem exec_readSide_frame {i : Instr} {s t : State} (hi : readSide i) (h : exec i s = .next t) :
    ReadFrame s t := by
  obtain rfl | hi := hi
  · obtain ⟨ph, v, rfl⟩ | ⟨-, -, -, he⟩ := execReadBit_cases h
    · exact ⟨⟨rfl, rfl⟩, rfl, rfl, .inl ⟨rfl, rfl, rfl⟩, .inl rfl⟩
    · exact (exec_readState_frame (decodeReadCode_space _) he).of_phase
  · exact exec_readState_frame hi h

/-- Settles O40: the bytes are unchanged because the buffers are. -/
theorem readSideFrame : Obligations.ReadSideFrame := by
  intro i s t hi h
  have hf := exec_readSide_frame hi h
  exact ⟨fun a => by rw [hf.header], fun a => by rw [hf.body], hf.gates, hf.events⟩

/-- What an operation of the write side leaves unchanged, and how a PERSIST departs from it
(10_state.md R50, 42_write_fsm.md R210). -/
structure WriteFrame (s t : State) : Prop where
  inputs : s.sameInputs t
  rdData : t.rdData = s.rdData
  gates  : (t.rd = s.rd ∧ t.motor = s.motor ∧ t.sense = s.sense) ∨
    (t.rd = ReadCursor.zero ∧ t.wr = WriteCursor.zero ∧ t.motor = false ∧ t.sense = false ∧
      ∃ h b n, t.events = s.events ++ [.persist h b n])
  events : t.events = s.events ∨ ∃ e, t.events = s.events ++ [e]

theorem WriteKeeps.frame {c : Config} {p : Bit} {s t : State} (h : WriteKeeps c p s t) :
    WriteFrame s t := by
  cases h with
  | cursor wr h => subst h; exact ⟨⟨rfl, rfl⟩, rfl, .inl ⟨rfl, rfl, rfl⟩, .inl rfl⟩
  | logged code a b wr h => subst h; exact ⟨⟨rfl, rfl⟩, rfl, .inl ⟨rfl, rfl, rfl⟩, .inr ⟨_, rfl⟩⟩
  | persisted hp hn h =>
    subst h
    exact ⟨⟨rfl, rfl⟩, rfl, .inr ⟨rfl, rfl, rfl, rfl, _, _, _, rfl⟩, .inr ⟨_, rfl⟩⟩

theorem StoresHeader.frame {c : Config} {s t : State} (h : StoresHeader c s t) : WriteFrame s t := by
  obtain ⟨-, -, wr, v, rfl⟩ := h
  exact ⟨⟨rfl, rfl⟩, rfl, .inl ⟨rfl, rfl, rfl⟩, .inl rfl⟩

theorem StoresBody.frame {c : Config} {s t : State} (h : StoresBody c s t) : WriteFrame s t := by
  obtain ⟨-, -, -, wr, v, rfl⟩ := h
  exact ⟨⟨rfl, rfl⟩, rfl, .inl ⟨rfl, rfl, rfl⟩, .inl rfl⟩

/-- A pulse from Idle clears `tcount` and then keeps what every other pulse keeps. -/
theorem writeFromIdle_keeps {c : Config} {p : Bit} {s t : State} (h : writeFromIdle c p s = .next t) :
    WriteKeeps c p (s.setTcount 0) t := by
  rw [writeFromIdle_eq] at h
  split at h
  · cases h; exact .cursor _ rfl
  · cases h; exact .logged _ _ _ _ rfl

/-- The frame does not see the tape counter. -/
theorem WriteFrame.of_tcount {s t : State} {n : Half} (h : WriteFrame (s.setTcount n) t) :
    WriteFrame s t :=
  ⟨h.inputs, h.rdData, h.gates, h.events⟩

/-- The frame does not see the write cursor. -/
theorem WriteFrame.of_wr {s t : State} {wr : WriteCursor} (h : WriteFrame (s.setWr wr) t) :
    WriteFrame s t :=
  ⟨h.inputs, h.rdData, h.gates, h.events⟩

/-- Every write handler, whatever the state. -/
theorem exec_writeState_frame {i : Instr} {s t : State} (hi : i.space = .writeState)
    (h : exec i s = .next t) : WriteFrame s t := by
  obtain hk | ⟨-, hh⟩ | ⟨-, hb⟩ | ⟨-, hw⟩ := exec_write_cases hi h
  · exact hk.frame
  · exact hh.frame
  · exact hb.frame
  · exact (writeFromIdle_keeps hw).frame.of_tcount

theorem exec_writeSide_frame {i : Instr} {s t : State} (hi : writeSide i) (h : exec i s = .next t) :
    WriteFrame s t := by
  obtain ⟨b, rfl⟩ | hi := hi
  · obtain ⟨line, time, rfl⟩ | ⟨-, -, -, -, he⟩ := execWriteBit_cases h
    · exact ⟨⟨rfl, rfl⟩, rfl, .inl ⟨rfl, rfl, rfl⟩, .inl rfl⟩
    · exact (exec_writeState_frame (decodeWriteCode_space _) he).of_wr
  · exact exec_writeState_frame hi h

/-- Settles O41. -/
theorem writeSideFrame : Obligations.WriteSideFrame := by
  intro i s t hi h
  have hf := exec_writeSide_frame hi h
  exact ⟨hf.rdData, hf.gates⟩

/-- A gate operation writes the gates only. -/
theorem exec_gateOp {i : Instr} {s t : State} (hi : gateOp i) (h : exec i s = .next t) :
    ∃ m n, t = s.setGates m n := by
  obtain ⟨b, rfl⟩ | ⟨b, rfl⟩ | rfl := hi <;> (cases h; exact ⟨_, _, rfl⟩)

/-- PRELOAD answers a state only where the image is well formed and fits (40_interface_ops.md R140). -/
theorem preload_next {c : Config} {s t : State} (h : preload c s = .next t) :
    imageConsistent c s.port.image = true ∧ imageFits c s.port.image = true ∧
      t = (s.setHeader (s.header.writeBlock 0 s.port.image.header)).setBody
        (s.body.writeBlock 0 s.port.image.body) := by
  simp only [preload] at h
  split at h
  · cases h
  · rename_i hcons
    split at h
    · cases h
    · rename_i hfits
      cases h
      exact ⟨by simpa using hcons, by simpa using hfits, rfl⟩

/-- Settles O39: the frame of each side, and the operations that raise no event. -/
theorem historyOnlyGrowsByOneEvent : Obligations.HistoryOnlyGrowsByOneEvent := by
  intro i s t h
  obtain hi | hi | hi | rfl | rfl := instr_sides i
  · have hf := exec_readSide_frame hi h
    exact ⟨hf.inputs.1, hf.inputs.2, hf.events.imp_right fun he => ⟨_, he.2⟩⟩
  · have hf := exec_writeSide_frame hi h
    exact ⟨hf.inputs.1, hf.inputs.2, hf.events⟩
  · obtain ⟨m, n, rfl⟩ := exec_gateOp hi h
    exact ⟨rfl, rfl, .inl rfl⟩
  · cases h; exact ⟨rfl, rfl, .inl rfl⟩
  · obtain ⟨-, -, rfl⟩ := preload_next h
    exact ⟨rfl, rfl, .inl rfl⟩

/-- Settles O44: both sides keep the gates or clear them, so a gate that turns on needs a gate
operation, and of these SET_MOTOR 0 and SET_SENSE 0 set none. -/
theorem onlyGateOperationsSetAGate : Obligations.OnlyGateOperationsSetAGate := by
  intro i s t h hset
  obtain hi | hi | hi | rfl | rfl := instr_sides i
  · obtain ⟨-, hm, hs⟩ | ⟨-, -, hm, hs⟩ := (exec_readSide_frame hi h).gates <;> simp_all
  · obtain ⟨-, hm, hs⟩ | ⟨-, -, hm, hs, -⟩ := (exec_writeSide_frame hi h).gates <;> simp_all
  · obtain ⟨b, rfl⟩ | ⟨b, rfl⟩ | rfl := hi
    · cases h; cases b <;> simp_all
    · cases h; cases b <;> simp_all
    · exact .inr (.inr rfl)
  · cases h; simp at hset
  · obtain ⟨-, -, rfl⟩ := preload_next h
    simp_all

end Sys2Proof.Machine
end

section
/-!
Both buffers stay canonical and within their sizes (10_state.md R45, R46, 20_memory.md R61).
-/
namespace Sys2Proof.Machine

theorem State.BuffersLegal.of_eq {c : Config} {s t : State} (h : s.BuffersLegal c)
    (hh : t.header = s.header) (hb : t.body = s.body) : t.BuffersLegal c where
  header_wf := hh ▸ h.header_wf
  header_inside := hh ▸ h.header_inside
  body_wf := hb ▸ h.body_wf
  body_inside := hb ▸ h.body_inside

theorem WriteKeeps.sameBuffers {c : Config} {p : Bit} {s t : State} (h : WriteKeeps c p s t) :
    t.header = s.header ∧ t.body = s.body := by
  cases h with
  | cursor wr h => subst h; exact ⟨rfl, rfl⟩
  | logged code a b wr h => subst h; exact ⟨rfl, rfl⟩
  | persisted hp hn h => subst h; exact ⟨rfl, rfl⟩

theorem WriteKeeps.buffersLegal {c : Config} {p : Bit} {s t : State} (h : WriteKeeps c p s t)
    (hb : s.BuffersLegal c) : t.BuffersLegal c :=
  hb.of_eq h.sameBuffers.1 h.sameBuffers.2

/-- The byte an eighth data bit of the header completes lies in the header (42_write_fsm.md R204). -/
theorem StoresHeader.index_lt {c : Config} {s t : State} (h : StoresHeader c s t) :
    (s.wr.wcnt + 1).toNat / 8 - 1 < c.hdrBytes := by
  have hlt : s.wr.wcnt.toNat < 8 * c.hdrBytes := h.1
  have hle : (s.wr.wcnt + 1).toNat ≤ s.wr.wcnt.toNat + 1 := by
    rw [BitVec.toNat_add]
    exact Nat.mod_le _ _
  omega

theorem StoresHeader.buffersLegal {c : Config} {s t : State} (h : StoresHeader c s t)
    (hb : s.BuffersLegal c) : t.BuffersLegal c := by
  have hi := h.index_lt
  obtain ⟨-, -, wr, v, rfl⟩ := h
  exact ⟨Memory.write_wf hb.header_wf _ v, Memory.write_inside v hi hb.header_inside, hb.body_wf,
    hb.body_inside⟩

theorem StoresBody.buffersLegal {c : Config} {s t : State} (h : StoresBody c s t)
    (hb : s.BuffersLegal c) : t.BuffersLegal c := by
  obtain ⟨-, -, hi, wr, v, rfl⟩ := h
  exact ⟨hb.header_wf, hb.header_inside, Memory.write_wf hb.body_wf _ v,
    Memory.write_inside v hi hb.body_inside⟩

theorem exec_writeState_buffersLegal {i : Instr} {s t : State} (hi : i.space = .writeState)
    (h : exec i s = .next t) (hb : s.BuffersLegal Config.machine) : t.BuffersLegal Config.machine := by
  obtain hk | ⟨-, hh⟩ | ⟨-, hs⟩ | ⟨-, hw⟩ := exec_write_cases hi h
  · exact hk.buffersLegal hb
  · exact hh.buffersLegal hb
  · exact hs.buffersLegal hb
  · exact (writeFromIdle_keeps hw).buffersLegal (hb.of_eq rfl rfl)

theorem exec_writeSide_buffersLegal {i : Instr} {s t : State} (hi : writeSide i)
    (h : exec i s = .next t) (hb : s.BuffersLegal Config.machine) : t.BuffersLegal Config.machine := by
  obtain ⟨b, rfl⟩ | hi := hi
  · obtain ⟨line, time, rfl⟩ | ⟨-, -, -, -, he⟩ := execWriteBit_cases h
    · exact hb.of_eq rfl rfl
    · exact exec_writeState_buffersLegal (decodeWriteCode_space _) he (hb.of_eq rfl rfl)
  · exact exec_writeState_buffersLegal hi h hb

/-- PRELOAD writes two blocks that its checks keep inside the buffers (40_interface_ops.md R140). -/
theorem preload_buffersLegal {c : Config} {s t : State} (h : preload c s = .next t)
    (hb : s.BuffersLegal c) : t.BuffersLegal c := by
  obtain ⟨hcons, hfits, rfl⟩ := preload_next h
  simp only [imageConsistent, imageFits, Bool.and_eq_true, decide_eq_true_eq] at hcons hfits
  exact ⟨Memory.writeBlock_wf hb.header_wf 0 _,
    Memory.writeBlock_inside (by simpa using hcons.1.le) hb.header_inside,
    Memory.writeBlock_wf hb.body_wf 0 _,
    Memory.writeBlock_inside (by simpa using hfits) hb.body_inside⟩

/-- Settles O47: only the write side and PRELOAD store, each inside the buffer it stores in. -/
theorem buffersStayLegal : Obligations.BuffersStayLegal := by
  intro i s t hb h
  obtain hi | hi | hi | rfl | rfl := instr_sides i
  · have hf := exec_readSide_frame hi h
    exact hb.of_eq hf.header hf.body
  · exact exec_writeSide_buffersLegal hi h hb
  · obtain ⟨m, n, rfl⟩ := exec_gateOp hi h
    exact hb.of_eq rfl rfl
  · cases h; exact hb.of_eq rfl rfl
  · exact preload_buffersLegal h hb

end Sys2Proof.Machine
end

section
/-!
A section counter with its sync flag, as 10_state.md R24, R25, R36, R37 and R51 have the pair in either
FSM: what a counted pulse, a sync pulse and a data bit do to it.
-/
namespace Sys2Proof.Machine

/-- The part of the invariant the two cursors share: a set sync flag stands in a byte-framed state, the
counter is at most the state's length, and with the flag clear in a framed state it is at a byte
boundary. -/
structure CounterLegal (framed : Prop) (len : Nat) (cnt : Count) (sync : Bit) : Prop where
  sync_framed : sync = true → framed
  cnt_bound   : cnt.toNat ≤ len
  sync_whole  : framed → sync = false → cnt.toNat % 8 = 0

variable {framed : Prop} {len : Nat} {cnt : Count} {sync : Bit}

/-- A state entered by a fall-through. -/
theorem CounterLegal.zero : CounterLegal framed len 0 false :=
  ⟨fun h => (by cases h), Nat.zero_le _, fun _ _ => rfl⟩

/-- A pulse counted outside a byte frame. -/
theorem CounterLegal.count (h : CounterLegal framed len cnt sync) (hf : ¬ framed)
    (hlt : cnt.toNat < len) (hlen : len < 2 ^ 32) : CounterLegal framed len (cnt + 1) sync where
  sync_framed := h.sync_framed
  cnt_bound := by rw [Count.toNat_succ (by omega)]; omega
  sync_whole hf' := absurd hf' hf

/-- The sync pulse of a byte frame. -/
theorem CounterLegal.syncPulse (h : CounterLegal framed len cnt sync) (hf : framed) :
    CounterLegal framed len cnt true :=
  ⟨fun _ => hf, h.cnt_bound, fun _ hy => (by cases hy)⟩

/-- A data bit of a byte frame: the flag is set before it, since with the flag clear the counter is at
a byte boundary and the pulse is the sync pulse. -/
theorem CounterLegal.dataBit (h : CounterLegal framed len cnt sync) (hf : framed)
    (hdata : ¬ (cnt.toNat % 8 = 0 ∧ sync = false)) (hlt : cnt.toNat < len) (hlen : len < 2 ^ 32) :
    CounterLegal framed len (cnt + 1) (if byteComplete (cnt + 1) then false else sync) where
  sync_framed _ := hf
  cnt_bound := by rw [Count.toNat_succ (by omega)]; omega
  sync_whole _ hy := by
    have hsync : sync ≠ false := fun hs => hdata ⟨h.sync_whole hf hs, hs⟩
    split at hy
    · rename_i h8; exact (byteComplete_eq_true _).1 h8
    · exact absurd hy hsync

end Sys2Proof.Machine
end

section
/-!
The read cursor's invariant (10_state.md R24, R25, R51) through the read dispatcher and READ_BIT.
-/
namespace Sys2Proof.Machine

variable {c : Config} {rd rd' : ReadCursor} {s t : State}

theorem ReadCursor.legal_zero (c : Config) : ReadCursor.zero.Legal c :=
  ⟨.inl rfl, fun h => (by cases h), Nat.le_refl _, fun _ _ => rfl⟩

theorem ReadCursor.Legal.counter (h : rd.Legal c) :
    CounterLegal (framedState rd.rstate) (readLength c rd) rd.rcnt rd.rsync :=
  ⟨h.sync_framed, h.cnt_bound, h.sync_whole⟩

/-- A cursor entered by a fall-through. -/
theorem ReadCursor.legal_of_fresh (hs : heldReadState rd.rstate) (h0 : rd.rcnt = 0)
    (hy : rd.rsync = false) : rd.Legal c := by
  have hcnt : CounterLegal (framedState rd.rstate) (readLength c rd) rd.rcnt rd.rsync := by
    rw [h0, hy]; exact .zero
  exact ⟨hs, hcnt.sync_framed, hcnt.cnt_bound, hcnt.sync_whole⟩

/-- The invariant sees the state, the latched length, the counter and the flag only. -/
theorem ReadCursor.Legal.of_counter (h : rd.Legal c) (hs : rd'.rstate = rd.rstate)
    (hn : rd'.rblen = rd.rblen)
    (hcnt : CounterLegal (framedState rd.rstate) (readLength c rd) rd'.rcnt rd'.rsync) :
    rd'.Legal c where
  state_held := hs ▸ h.state_held
  sync_framed := hs ▸ hcnt.sync_framed
  cnt_bound := by
    have hlen : readLength c rd' = readLength c rd := by rw [readLength, readLength, hs, hn]
    exact hlen ▸ hcnt.cnt_bound
  sync_whole := hs ▸ hcnt.sync_whole

/-- No section of a read is as long as the counter is wide (42_write_fsm.md R215). -/
theorem readLength_lt (hc : c.WellFormed) (rd : ReadCursor) : readLength c rd < 2 ^ 32 := by
  have hn := rd.rblen.isLt
  have hcks := hc.cks_two
  have hhdr := hc.hdr_count
  have hpre := hc.rpre_count
  have hbpre := hc.rbpre_count
  unfold readLength
  split <;> omega

theorem rByteFrame_legal {byte : Byte} {counted isbody : Bool} (hc : c.WellFormed) (h : s.rd.Legal c)
    (hf : framedState s.rd.rstate) (hlt : s.rd.rcnt.toNat < readLength c s.rd) :
    (rByteFrame byte counted isbody s).rd.Legal c := by
  by_cases hy : s.rd.rcnt.toNat % 8 = 0 ∧ s.rd.rsync = false
  · rw [rByteFrame_sync hy]
    exact h.of_counter rfl rfl (h.counter.syncPulse hf)
  · rw [rByteFrame_bit hy]
    exact h.of_counter rfl rfl (h.counter.dataBit hf hy hlt (readLength_lt hc _))

/-- A preamble pulse. -/
theorem ReadCursor.Legal.count (hc : c.WellFormed) (h : rd.Legal c) (hf : ¬ framedState rd.rstate)
    (hlt : rd.rcnt.toNat < readLength c rd) : ReadCursor.Legal c { rd with rcnt := rd.rcnt + 1 } :=
  h.of_counter rfl rfl (h.counter.count hf hlt (readLength_lt hc _))

theorem readFromStop_legal (h : readFromStop s = .next t) : t.rd.Legal c := by
  cases h; exact ReadCursor.legal_zero c

theorem readFromBodyCks_legal (hc : c.WellFormed) (hl : s.rd.Legal c) (hs : s.rd.rstate = 9)
    (h : readFromBodyCks c s = .next t) : t.rd.Legal c := by
  rw [readFromBodyCks, rBodyCks] at h
  split at h
  · rename_i hlt
    cases h
    exact rByteFrame_legal hc hl (by simp [framedState, hs]) (by simpa [readLength, hs] using hlt)
  · exact readFromStop_legal h

theorem readFromBody_legal (hc : c.WellFormed) (hl : s.rd.Legal c) (hs : s.rd.rstate = 8)
    (h : readFromBody c s = .next t) : t.rd.Legal c := by
  rw [readFromBody, rBody] at h
  split at h
  · rename_i hlt
    split at h
    · cases h
    · cases h
      exact rByteFrame_legal hc hl (by simp [framedState, hs]) (by simpa [readLength, hs] using hlt)
  · rw [Turn.andThen_again] at h
    exact readFromBodyCks_legal hc (ReadCursor.legal_of_fresh (by simp [heldReadState]) rfl rfl) rfl h

theorem readFromBodyPre_legal (hc : c.WellFormed) (hl : s.rd.Legal c) (hs : s.rd.rstate = 7)
    (h : readFromBodyPre c s = .next t) : t.rd.Legal c := by
  rw [readFromBodyPre, rBodyPre] at h
  split at h
  · rename_i hlt
    cases h
    exact hl.count hc (by simp [framedState, hs]) (by simpa [readLength, hs] using hlt)
  · rw [Turn.andThen_again] at h
    exact readFromBody_legal hc (ReadCursor.legal_of_fresh (by simp [heldReadState]) rfl rfl) rfl h

theorem readFromHdrCks_legal (hc : c.WellFormed) (hl : s.rd.Legal c) (hs : s.rd.rstate = 3)
    (h : readFromHdrCks c s = .next t) : t.rd.Legal c := by
  rw [readFromHdrCks, rHdrCks] at h
  split at h
  · rename_i hlt
    cases h
    exact rByteFrame_legal hc hl (by simp [framedState, hs]) (by simpa [readLength, hs] using hlt)
  · rw [Turn.andThen_again] at h
    exact readFromBodyPre_legal hc (ReadCursor.legal_of_fresh (by simp [heldReadState]) rfl rfl) rfl h

theorem readFromHeader_legal (hc : c.WellFormed) (hl : s.rd.Legal c) (hs : s.rd.rstate = 2)
    (h : readFromHeader c s = .next t) : t.rd.Legal c := by
  rw [readFromHeader, rHeader] at h
  split at h
  · rename_i hlt
    cases h
    exact rByteFrame_legal hc hl (by simp [framedState, hs]) (by simpa [readLength, hs] using hlt)
  · rw [Turn.andThen_again] at h
    exact readFromHdrCks_legal hc (ReadCursor.legal_of_fresh (by simp [heldReadState]) rfl rfl) rfl h

theorem readFromPreamble_legal (hc : c.WellFormed) (hl : s.rd.Legal c) (hs : s.rd.rstate = 1)
    (h : readFromPreamble c s = .next t) : t.rd.Legal c := by
  rw [readFromPreamble, rPreamble] at h
  split at h
  · rename_i hlt
    cases h
    exact hl.count hc (by simp [framedState, hs]) (by simpa [readLength, hs] using hlt)
  · rw [Turn.andThen_again] at h
    exact readFromHeader_legal hc (ReadCursor.legal_of_fresh (by simp [heldReadState]) rfl rfl) rfl h

theorem readFromIdle_legal (hc : c.WellFormed) (h : readFromIdle c s = .next t) : t.rd.Legal c :=
  readFromPreamble_legal hc (ReadCursor.legal_of_fresh (by simp [rIdle, heldReadState]) rfl rfl) rfl h

/-- An advancing call from a legal cursor, by the state it stands in. -/
theorem exec_decodeReadCode_legal (hl : s.rd.Legal Config.machine)
    (h : exec (decodeReadCode s.rd.rstate) s = .next t) : t.rd.Legal Config.machine := by
  have hc := Config.machine_wellFormed
  obtain hs | hs | hs | hs | hs | hs | hs := hl.state_held <;> rw [hs] at h
  · exact readFromIdle_legal hc h
  · exact readFromPreamble_legal hc hl hs h
  · exact readFromHeader_legal hc hl hs h
  · exact readFromHdrCks_legal hc hl hs h
  · exact readFromBodyPre_legal hc hl hs h
  · exact readFromBody_legal hc hl hs h
  · exact readFromBodyCks_legal hc hl hs h

/-- The phase is no part of the invariant. -/
theorem ReadCursor.Legal.setPhase (h : rd.Legal c) (ph : Phase) :
    ReadCursor.Legal c { rd with rphase := ph } :=
  h.of_counter rfl rfl h.counter

theorem execReadBit_legal (hl : s.rd.Legal Config.machine) (h : exec .readBit s = .next t) :
    t.rd.Legal Config.machine := by
  obtain ⟨ph, v, rfl⟩ | ⟨-, -, -, he⟩ := execReadBit_cases h
  · exact hl.setPhase ph
  · exact exec_decodeReadCode_legal (s := s.setRd { s.rd with rphase := .trail }) (hl.setPhase _) he

end Sys2Proof.Machine
end

section
/-!
The write cursor's invariant (10_state.md R36, R37, R51) through the write dispatcher and WRITE_BIT.
-/
namespace Sys2Proof.Machine

variable {c : Config} {wr wr' : WriteCursor} {s t : State} {p : Bit}

theorem WriteCursor.legal_zero (c : Config) : WriteCursor.zero.Legal c :=
  ⟨.inl rfl, fun h => (by cases h), Nat.le_refl _, fun _ _ => rfl⟩

theorem WriteCursor.Legal.counter (h : wr.Legal c) :
    CounterLegal (framedState wr.wstate) (writeLength c wr) wr.wcnt wr.wsync :=
  ⟨h.sync_framed, h.cnt_bound, h.sync_whole⟩

/-- A cursor entered by a fall-through. -/
theorem WriteCursor.legal_of_fresh (hs : heldWriteState wr.wstate) (h0 : wr.wcnt = 0)
    (hy : wr.wsync = false) : wr.Legal c := by
  have hcnt : CounterLegal (framedState wr.wstate) (writeLength c wr) wr.wcnt wr.wsync := by
    rw [h0, hy]; exact .zero
  exact ⟨hs, hcnt.sync_framed, hcnt.cnt_bound, hcnt.sync_whole⟩

/-- The invariant sees the state, the latched length, the counter and the flag only. -/
theorem WriteCursor.Legal.of_counter (h : wr.Legal c) (hs : wr'.wstate = wr.wstate)
    (hn : wr'.wblen = wr.wblen)
    (hcnt : CounterLegal (framedState wr.wstate) (writeLength c wr) wr'.wcnt wr'.wsync) :
    wr'.Legal c where
  state_held := hs ▸ h.state_held
  sync_framed := hs ▸ hcnt.sync_framed
  cnt_bound := by
    have hlen : writeLength c wr' = writeLength c wr := by rw [writeLength, writeLength, hs, hn]
    exact hlen ▸ hcnt.cnt_bound
  sync_whole := hs ▸ hcnt.sync_whole

/-- No section of a write is as long as the counter is wide (42_write_fsm.md R215). -/
theorem writeLength_lt (hc : c.WellFormed) (wr : WriteCursor) : writeLength c wr < 2 ^ 32 := by
  have hn := wr.wblen.isLt
  have hcks := hc.cks_two
  have hhdr := hc.hdr_count
  have hpre := hc.wpre_count
  have h4 := hc.skip4_count
  have h10 := hc.skip10_count wr.wblen
  unfold writeLength
  split <;> omega

/-- A pulse of the preamble or of a skip. -/
theorem WriteCursor.Legal.count (hc : c.WellFormed) (h : wr.Legal c) (hf : ¬ framedState wr.wstate)
    (hlt : wr.wcnt.toNat < writeLength c wr) : WriteCursor.Legal c { wr with wcnt := wr.wcnt + 1 } :=
  h.of_counter rfl rfl (h.counter.count hf hlt (writeLength_lt hc _))

theorem wChecksumPulse_legal {code : LogCode} (hc : c.WellFormed) (h : s.wr.Legal c)
    (hf : framedState s.wr.wstate) (hlt : s.wr.wcnt.toNat < writeLength c s.wr) :
    (wChecksumPulse c code p s).wr.Legal c := by
  by_cases hy : s.wr.wcnt.toNat % 8 = 0 ∧ s.wr.wsync = false
  · rw [wChecksumPulse, wSkipSync_sync hy]
    exact h.of_counter rfl rfl (h.counter.syncPulse hf)
  · have hbit := h.counter.dataBit hf hy hlt (writeLength_lt hc _)
    rw [wChecksumPulse, wSkipSync_data hy]
    dsimp only
    split
    · exact h.of_counter rfl rfl hbit
    · exact h.of_counter rfl rfl hbit

/-- A data bit of Header or Body, with the flag cleared where it completes its byte. -/
theorem wDataBit_legal (hc : c.WellFormed) (h : wr.Legal c) (hf : framedState wr.wstate)
    (hdata : ¬ (wr.wcnt.toNat % 8 = 0 ∧ wr.wsync = false)) (hlt : wr.wcnt.toNat < writeLength c wr) :
    if byteComplete (wDataBit p wr).wcnt then
      WriteCursor.Legal c { wDataBit p wr with wsync := false }
    else (wDataBit p wr).Legal c := by
  have hbit := h.counter.dataBit hf hdata hlt (writeLength_lt hc _)
  split
  · rename_i h8
    rw [if_pos (by exact h8)] at hbit
    exact h.of_counter rfl rfl hbit
  · rename_i h8
    rw [if_neg (by exact h8)] at hbit
    exact h.of_counter rfl rfl hbit

/-- W.STOP zeroes the cursor, whatever the symbol. -/
theorem writeFromStop_legal (h : writeFromStop c p s = .next t) : t.wr.Legal c := by
  rw [writeFromStop, wStop] at h
  split at h
  · split at h
    · cases h
    · cases h; exact WriteCursor.legal_zero c
  · cases h; exact WriteCursor.legal_zero c

theorem writeFromSkip10_legal (hc : c.WellFormed) (hl : s.wr.Legal c) (hs : s.wr.wstate = 10)
    (h : writeFromSkip10 c p s = .next t) : t.wr.Legal c := by
  rw [writeFromSkip10, wSkip10] at h
  split at h
  · rename_i hlt
    cases h
    exact hl.count hc (by simp [framedState, hs]) (by simpa [writeLength, hs] using hlt)
  · exact writeFromStop_legal h

theorem writeFromBodyCks_legal (hc : c.WellFormed) (hl : s.wr.Legal c) (hs : s.wr.wstate = 9)
    (h : writeFromBodyCks c p s = .next t) : t.wr.Legal c := by
  rw [writeFromBodyCks, wBodyCks] at h
  split at h
  · rename_i hlt
    cases h
    exact wChecksumPulse_legal hc hl (by simp [framedState, hs]) (by simpa [writeLength, hs] using hlt)
  · rw [Turn.andThen_again] at h
    exact writeFromSkip10_legal hc (WriteCursor.legal_of_fresh (by simp [heldWriteState]) rfl rfl) rfl h

theorem writeFromBody_legal (hc : c.WellFormed) (hl : s.wr.Legal c) (hs : s.wr.wstate = 8)
    (h : writeFromBody c p s = .next t) : t.wr.Legal c := by
  have hf : framedState s.wr.wstate := by simp [framedState, hs]
  rw [writeFromBody, wBody] at h
  split at h
  · rename_i hlt
    by_cases hy : s.wr.wcnt.toNat % 8 = 0 ∧ s.wr.wsync = false
    · rw [wSkipSync_sync hy] at h
      cases h
      exact hl.of_counter rfl rfl (hl.counter.syncPulse hf)
    · have hbit := wDataBit_legal (p := p) hc hl hf hy (by simpa [writeLength, hs] using hlt)
      rw [wSkipSync_data hy] at h
      dsimp only at h
      split at h
      · rename_i h8
        rw [if_pos h8] at hbit
        split at h
        · cases h
        · cases h; exact hbit
      · rename_i h8
        rw [if_neg h8] at hbit
        cases h; exact hbit
  · rw [Turn.andThen_again] at h
    exact writeFromBodyCks_legal hc (WriteCursor.legal_of_fresh (by simp [heldWriteState]) rfl rfl) rfl h

theorem writeFromSkip4_legal (hc : c.WellFormed) (hl : s.wr.Legal c) (hs : s.wr.wstate = 4)
    (h : writeFromSkip4 c p s = .next t) : t.wr.Legal c := by
  rw [writeFromSkip4, wSkip4] at h
  split at h
  · rename_i hlt
    cases h
    exact hl.count hc (by simp [framedState, hs]) (by simpa [writeLength, hs] using hlt)
  · rw [Turn.andThen_again] at h
    exact writeFromBody_legal hc (WriteCursor.legal_of_fresh (by simp [heldWriteState]) rfl rfl) rfl h

theorem writeFromHdrCks_legal (hc : c.WellFormed) (hl : s.wr.Legal c) (hs : s.wr.wstate = 3)
    (h : writeFromHdrCks c p s = .next t) : t.wr.Legal c := by
  rw [writeFromHdrCks, wHdrCks] at h
  split at h
  · rename_i hlt
    cases h
    exact wChecksumPulse_legal hc hl (by simp [framedState, hs]) (by simpa [writeLength, hs] using hlt)
  · rw [Turn.andThen_again] at h
    exact writeFromSkip4_legal hc (WriteCursor.legal_of_fresh (by simp [heldWriteState]) rfl rfl) rfl h

theorem writeFromHeader_legal (hc : c.WellFormed) (hl : s.wr.Legal c) (hs : s.wr.wstate = 2)
    (h : writeFromHeader c p s = .next t) : t.wr.Legal c := by
  have hf : framedState s.wr.wstate := by simp [framedState, hs]
  rw [writeFromHeader, wHeader] at h
  split at h
  · rename_i hlt
    by_cases hy : s.wr.wcnt.toNat % 8 = 0 ∧ s.wr.wsync = false
    · rw [wSkipSync_sync hy] at h
      cases h
      exact hl.of_counter rfl rfl (hl.counter.syncPulse hf)
    · have hbit := wDataBit_legal (p := p) hc hl hf hy (by simpa [writeLength, hs] using hlt)
      rw [wSkipSync_data hy] at h
      dsimp only at h
      split at h
      · rename_i h8
        rw [if_pos h8] at hbit
        cases h; exact hbit
      · rename_i h8
        rw [if_neg h8] at hbit
        cases h; exact hbit
  · rw [Turn.andThen_again] at h
    exact writeFromHdrCks_legal hc (WriteCursor.legal_of_fresh (by simp [heldWriteState]) rfl rfl) rfl h

theorem writeFromPreamble_legal (hc : c.WellFormed) (hl : s.wr.Legal c) (hs : s.wr.wstate = 1)
    (h : writeFromPreamble c p s = .next t) : t.wr.Legal c := by
  rw [writeFromPreamble, wPreamble] at h
  split at h
  · rename_i hlt
    split at h
    · cases h; exact WriteCursor.legal_zero c
    · cases h
      exact hl.count hc (by simp [framedState, hs]) (by simpa [writeLength, hs] using hlt)
  · rw [Turn.andThen_again] at h
    exact writeFromHeader_legal hc (WriteCursor.legal_of_fresh (by simp [heldWriteState]) rfl rfl) rfl h

theorem writeFromIdle_legal (hc : c.WellFormed) (h : writeFromIdle c p s = .next t) : t.wr.Legal c :=
  writeFromPreamble_legal hc (WriteCursor.legal_of_fresh (by simp [wIdle, heldWriteState]) rfl rfl) rfl h

/-- An accepted falling edge from a legal cursor, by the state it stands in. -/
theorem exec_decodeWriteCode_legal (hl : s.wr.Legal Config.machine)
    (h : exec (decodeWriteCode s.wr.wstate) s = .next t) : t.wr.Legal Config.machine := by
  have hc := Config.machine_wellFormed
  obtain hs | hs | hs | hs | hs | hs | hs | hs := hl.state_held <;> rw [hs] at h
  · exact writeFromIdle_legal hc h
  · exact writeFromPreamble_legal hc hl hs h
  · exact writeFromHeader_legal hc hl hs h
  · exact writeFromHdrCks_legal hc hl hs h
  · exact writeFromSkip4_legal hc hl hs h
  · exact writeFromBody_legal hc hl hs h
  · exact writeFromBodyCks_legal hc hl hs h
  · exact writeFromSkip10_legal hc hl hs h

/-- The line and the time of its rising edge are no part of the invariant. -/
theorem WriteCursor.Legal.setLine (h : wr.Legal c) (line : Bit) (time : Time) :
    WriteCursor.Legal c { wr with wline := line, wt0 := time } :=
  h.of_counter rfl rfl h.counter

theorem execWriteBit_legal {b : Bit} (hl : s.wr.Legal Config.machine)
    (h : exec (.writeBit b) s = .next t) : t.wr.Legal Config.machine := by
  obtain ⟨line, time, rfl⟩ | ⟨-, -, -, -, he⟩ := execWriteBit_cases h
  · exact hl.setLine line time
  · exact exec_decodeWriteCode_legal (s := s.setWr { s.wr with wline := false }) (hl.setLine _ _) he

end Sys2Proof.Machine
end

section
/-!
The invariant of every state a step leaves (10_state.md R51): at power-on, and over every step.
-/
namespace Sys2Proof.Machine

/-- Settles O49: both cursors are the zero cursors and both buffers list no byte. -/
theorem powerOnStateIsLegal : Obligations.PowerOnStateIsLegal :=
  ⟨ReadCursor.legal_zero _, WriteCursor.legal_zero _, ⟨rfl, rfl, rfl, rfl⟩⟩

variable {i : Instr} {s t : State}

/-- A read leaves the write cursor, or zeroes it with everything R.STOP resets. -/
theorem ReadFrame.write_legal {c : Config} (hf : ReadFrame s t) (hl : s.wr.Legal c) : t.wr.Legal c := by
  obtain ⟨hw, -, -⟩ | ⟨-, hw, -, -⟩ := hf.gates
  · rwa [hw]
  · rw [hw]; exact WriteCursor.legal_zero c

/-- A write leaves the read cursor, or zeroes it with everything a PERSIST resets. -/
theorem WriteFrame.read_legal {c : Config} (hf : WriteFrame s t) (hl : s.rd.Legal c) : t.rd.Legal c := by
  obtain ⟨hr, -, -⟩ | ⟨hr, -⟩ := hf.gates
  · rwa [hr]
  · rw [hr]; exact ReadCursor.legal_zero c

/-- An operation keeps both cursors legal: its own FSM's by the dispatcher, the other's by its frame. -/
theorem exec_command_cursors_legal (hi : i.space = .command) (h : exec i s = .next t)
    (hr : s.rd.Legal Config.machine) (hw : s.wr.Legal Config.machine) :
    t.rd.Legal Config.machine ∧ t.wr.Legal Config.machine := by
  cases i with
  | readBit => exact ⟨execReadBit_legal hr h, (exec_readSide_frame (.inl rfl) h).write_legal hw⟩
  | writeBit b =>
    exact ⟨(exec_writeSide_frame (.inl ⟨b, rfl⟩) h).read_legal hr, execWriteBit_legal hw h⟩
  | reset => cases h; exact ⟨ReadCursor.legal_zero _, WriteCursor.legal_zero _⟩
  | preload => obtain ⟨-, -, rfl⟩ := preload_next h; exact ⟨hr, hw⟩
  | setMotor b => cases h; exact ⟨hr, hw⟩
  | setSense b => cases h; exact ⟨hr, hw⟩
  | senseToggle => cases h; exact ⟨hr, hw⟩
  | _ => simp [Instr.space] at hi

/-- Settles O48: an idle step changes nothing; an operation keeps the cursors and the buffers legal. -/
theorem everyStepKeepsTheStateLegal : Obligations.EveryStepKeepsTheStateLegal := by
  intro s t hl h
  obtain ⟨-, rfl⟩ | ⟨inp, rest, i, -, hd, he⟩ := step_next h
  · exact hl
  · obtain ⟨hr, hw⟩ := exec_command_cursors_legal (decodeCommand_space hd) he hl.read hl.write
    exact ⟨hr, hw, buffersStayLegal i (s.accept inp.side rest) t (hl.buffers.of_eq rfl rfl) he⟩

end Sys2Proof.Machine
end

section
/-!
The tape counter (10_state.md R33): what an advancing call and an accepted falling edge do to it, and
that no other operation writes it.
-/
namespace Sys2Proof.Machine

variable {c : Config} {i : Instr} {s t : State} {p : Bit}

/-- R33 for one FSM: `tcount` goes from `n` to 0 where the FSM is in Idle, to `n + 1` at the eighth
data bit of a body byte, and is kept otherwise. -/
structure CountsBody (idle lastBit : Prop) (n n' : Half) : Prop where
  cleared  : idle → n' = 0
  advanced : lastBit → n' = n + 1
  kept     : ¬ idle → ¬ lastBit → n' = n

/-- Outside the eighth data bit of a body byte a byte frame keeps `tcount` (41_read_fsm.md R171). -/
theorem rByteFrame_tcount_kept {byte : Byte} {counted isbody : Bool}
    (h : isbody = false ∨ s.rd.rcnt.toNat % 8 ≠ 7) :
    (rByteFrame byte counted isbody s).tcount = s.tcount := by
  by_cases hy : s.rd.rcnt.toNat % 8 = 0 ∧ s.rd.rsync = false
  · rw [rByteFrame_sync hy]; rfl
  · have hkeep : ¬ (byteComplete (s.rd.rcnt + 1) && isbody) = true := by
      rw [Bool.and_eq_true, byteComplete_eq_true, Count.succ_mod_eight]
      rintro ⟨h8, hbody⟩
      rcases h with h | h
      · exact absurd hbody (by simp [h])
      · omega
    rw [rByteFrame_bit hy, State.answer_tcount, State.setTcount_tcount, if_neg hkeep]

/-- At the eighth data bit a body byte frame advances `tcount` (41_read_fsm.md R171). -/
theorem rByteFrame_tcount_advanced {byte : Byte} {counted : Bool} (h : s.rd.rcnt.toNat % 8 = 7) :
    (rByteFrame byte counted true s).tcount = s.tcount + 1 := by
  have h8 : (byteComplete (s.rd.rcnt + 1) && true) = true := by
    rw [Bool.and_true, byteComplete_eq_true, Count.succ_mod_eight]
    omega
  rw [rByteFrame_bit (by omega), State.answer_tcount, State.setTcount_tcount, if_pos h8]

theorem readFromBodyCks_tcount (h : readFromBodyCks c s = .next t) : t.tcount = s.tcount := by
  rw [readFromBodyCks, rBodyCks] at h
  split at h
  · cases h; exact rByteFrame_tcount_kept (.inl rfl)
  · cases h; rfl

theorem readFromBody_tcount_kept
    (hn : ¬ (s.rd.rcnt.toNat < 8 * s.rd.rblen.toNat ∧ s.rd.rcnt.toNat % 8 = 7))
    (h : readFromBody c s = .next t) : t.tcount = s.tcount := by
  rw [readFromBody, rBody] at h
  split at h
  · rename_i hlt
    split at h
    · cases h
    · cases h; exact rByteFrame_tcount_kept (.inr fun h7 => hn ⟨hlt, h7⟩)
  · rw [Turn.andThen_again] at h; exact (readFromBodyCks_tcount h).trans rfl

theorem readFromBody_tcount_advanced (hlt : s.rd.rcnt.toNat < 8 * s.rd.rblen.toNat)
    (h7 : s.rd.rcnt.toNat % 8 = 7) (h : readFromBody c s = .next t) : t.tcount = s.tcount + 1 := by
  rw [readFromBody, rBody, if_pos hlt] at h
  split at h
  · cases h
  · cases h; exact rByteFrame_tcount_advanced h7

theorem readFromBodyPre_tcount (h : readFromBodyPre c s = .next t) : t.tcount = s.tcount := by
  rw [readFromBodyPre, rBodyPre] at h
  split at h
  · cases h; rfl
  · rw [Turn.andThen_again] at h
    exact (readFromBody_tcount_kept (fun ⟨_, h7⟩ => by cases h7) h).trans rfl

theorem readFromHdrCks_tcount (h : readFromHdrCks c s = .next t) : t.tcount = s.tcount := by
  rw [readFromHdrCks, rHdrCks] at h
  split at h
  · cases h; exact rByteFrame_tcount_kept (.inl rfl)
  · rw [Turn.andThen_again] at h; exact (readFromBodyPre_tcount h).trans rfl

theorem readFromHeader_tcount (h : readFromHeader c s = .next t) : t.tcount = s.tcount := by
  rw [readFromHeader, rHeader] at h
  split at h
  · cases h; exact rByteFrame_tcount_kept (.inl rfl)
  · rw [Turn.andThen_again] at h; exact (readFromHdrCks_tcount h).trans rfl

theorem readFromPreamble_tcount (h : readFromPreamble c s = .next t) : t.tcount = s.tcount := by
  rw [readFromPreamble, rPreamble] at h
  split at h
  · cases h; rfl
  · rw [Turn.andThen_again] at h; exact (readFromHeader_tcount h).trans rfl

theorem readFromIdle_tcount (h : readFromIdle c s = .next t) : t.tcount = 0 := by
  rw [readFromIdle_eq] at h
  cases h; rfl

/-- Every read handler but R.IDLE and R.BODY keeps `tcount`. -/
theorem exec_readState_tcount (hi : i.space = .readState) (hidle : i ≠ .rIdle) (hbody : i ≠ .rBody)
    (h : exec i s = .next t) : t.tcount = s.tcount := by
  cases i with
  | rIdle => exact absurd rfl hidle
  | rPreamble => exact readFromPreamble_tcount h
  | rHeader => exact readFromHeader_tcount h
  | rHdrCks => exact readFromHdrCks_tcount h
  | rBodyPre => exact readFromBodyPre_tcount h
  | rBody => exact absurd rfl hbody
  | rBodyCks => exact readFromBodyCks_tcount h
  | readBit | writeBit _ | reset | preload | setMotor _ | setSense _ | senseToggle => cases hi
  | wIdle | wPreamble | wHeader | wHdrCks | wSkip4 | wUnknown5 | wUnknown6 | wUnknown7 | wBody
  | wBodyCks | wSkip10 | wUnknown11 | wUnknown12 | wStop | wUnknown14 | wUnknown15 => cases hi
  | _ => cases h; rfl

theorem decodeReadCode_eq_rIdle (code : Code) : decodeReadCode code = .rIdle ↔ code = 0 := by
  revert code; decide

theorem decodeReadCode_eq_rBody (code : Code) : decodeReadCode code = .rBody ↔ code = 8 := by
  revert code; decide

/-- R33 of an advancing call. -/
theorem exec_decodeReadCode_tcount (h : exec (decodeReadCode s.rd.rstate) s = .next t) :
    CountsBody (s.rd.rstate = 0) s.rd.atLastBodyBit s.tcount t.tcount where
  cleared h0 := by rw [h0] at h; exact readFromIdle_tcount h
  advanced := by
    rintro ⟨h8, hlt, h7⟩
    rw [h8] at h
    exact readFromBody_tcount_advanced hlt h7 h
  kept h0 hlast := by
    by_cases h8 : s.rd.rstate = 8
    · rw [h8] at h
      exact readFromBody_tcount_kept (fun hb => hlast ⟨h8, hb⟩) h
    · exact exec_readState_tcount (decodeReadCode_space _) (by rwa [Ne, decodeReadCode_eq_rIdle])
        (by rwa [Ne, decodeReadCode_eq_rBody]) h

theorem WriteKeeps.tcount (h : WriteKeeps c p s t) : t.tcount = s.tcount := by
  cases h with
  | cursor wr h => subst h; rfl
  | logged code a b wr h => subst h; rfl
  | persisted hp hn h => subst h; rfl

theorem writeFromIdle_tcount (h : writeFromIdle c p s = .next t) : t.tcount = 0 :=
  (writeFromIdle_keeps h).tcount

/-- The eighth data bit of a body byte is stored and counted, or faults (42_write_fsm.md R207). -/
theorem writeFromBody_tcount_advanced (hlt : s.wr.wcnt.toNat < 8 * s.wr.wblen.toNat)
    (h7 : s.wr.wcnt.toNat % 8 = 7) (h : writeFromBody c p s = .next t) : t.tcount = s.tcount + 1 := by
  have h8 : byteComplete (s.wr.wcnt + 1) = true := by
    rw [byteComplete_eq_true, Count.succ_mod_eight]
    omega
  rw [writeFromBody, wBody, if_pos hlt, wSkipSync_data (by omega)] at h
  dsimp only at h
  rw [if_pos (by exact h8)] at h
  split at h
  · cases h
  · cases h; rfl

theorem decodeWriteCode_eq_wIdle (code : Code) : decodeWriteCode code = .wIdle ↔ code = 0 := by
  revert code; decide

theorem decodeWriteCode_eq_wBody (code : Code) : decodeWriteCode code = .wBody ↔ code = 8 := by
  revert code; decide

/-- R33 of an accepted falling edge. -/
theorem exec_decodeWriteCode_tcount (h : exec (decodeWriteCode s.wr.wstate) s = .next t) :
    CountsBody (s.wr.wstate = 0) s.wr.atLastBodyBit s.tcount t.tcount where
  cleared h0 := by rw [h0] at h; exact writeFromIdle_tcount h
  advanced := by
    rintro ⟨h8, hlt, h7⟩
    rw [h8] at h
    exact writeFromBody_tcount_advanced hlt h7 h
  kept h0 hlast := by
    obtain hk | ⟨-, hh⟩ | ⟨hb, hs⟩ | ⟨hw, -⟩ := exec_write_cases (decodeWriteCode_space _) h
    · exact hk.tcount
    · obtain ⟨-, -, wr, v, rfl⟩ := hh
      rfl
    · obtain ⟨hlt, h8, -⟩ := hs
      rw [Count.succ_mod_eight] at h8
      exact absurd ⟨(decodeWriteCode_eq_wBody _).1 hb, hlt, by omega⟩ hlast
    · exact absurd ((decodeWriteCode_eq_wIdle _).1 hw) h0

/-- READ_BIT runs the read dispatcher (40_interface_ops.md R131, item 3 at the data level). -/
def entersRead (s : State) : Prop := s.motor = true ∧ readHeldOff s = false ∧ s.rd.rphase = .data

/-- WRITE_BIT 0 runs the write dispatcher (40_interface_ops.md R132). -/
def entersWrite (s : State) : Prop := s.motor = true ∧ s.sense = true ∧ s.wr.wline = true

/-- The advancing call is the handler of `rstate`, with the phase moved on. -/
theorem exec_readBit_advancing (h : entersRead s) :
    exec .readBit s = exec (decodeReadCode s.rd.rstate) (s.setRd { s.rd with rphase := .trail }) := by
  obtain ⟨hm, hh, hp⟩ := h
  rw [exec_readBit, readBit, if_neg (by simp [hm]), if_neg (by simp [hh]), hp, readAdvance_eq_exec]
  rfl

theorem exec_readBit_tcount (h : exec .readBit s = .next t) :
    (entersRead s → CountsBody (s.rd.rstate = 0) s.rd.atLastBodyBit s.tcount t.tcount) ∧
    (¬ entersRead s → t.tcount = s.tcount) := by
  refine ⟨fun he => ?_, fun hn => ?_⟩
  · rw [exec_readBit_advancing he] at h
    exact exec_decodeReadCode_tcount (s := s.setRd { s.rd with rphase := .trail }) h
  · obtain ⟨ph, v, rfl⟩ | ⟨hm, hh, hp, -⟩ := execReadBit_cases h
    · rfl
    · exact absurd ⟨hm, hh, hp⟩ hn

/-- The accepted falling edge is the handler of `wstate`, with the line low. -/
theorem exec_writeBit_falling (h : entersWrite s) :
    exec (.writeBit false) s =
      exec (decodeWriteCode s.wr.wstate) (s.setWr { s.wr with wline := false }) := by
  obtain ⟨hm, hs, hl⟩ := h
  rw [exec_writeBit, writeBit, if_neg (by simp [writeGate, hm, hs]), if_neg (by simp [risingEdge]),
    if_pos (by simp [fallingEdge, hl])]
  exact writePulse_eq_exec (s.setWr { s.wr with wline := false })

theorem exec_writeBit_tcount {b : Bit} (h : exec (.writeBit b) s = .next t) :
    (b = false → entersWrite s →
      CountsBody (s.wr.wstate = 0) s.wr.atLastBodyBit s.tcount t.tcount) ∧
    (¬ (b = false ∧ entersWrite s) → t.tcount = s.tcount) := by
  refine ⟨?_, fun hn => ?_⟩
  · rintro rfl he
    rw [exec_writeBit_falling he] at h
    exact exec_decodeWriteCode_tcount (s := s.setWr { s.wr with wline := false }) h
  · obtain ⟨line, time, rfl⟩ | ⟨hb, hm, hs, hl, -⟩ := execWriteBit_cases h
    · rfl
    · exact absurd ⟨hb, hm, hs, hl⟩ hn

/-- Every operation but READ_BIT and WRITE_BIT keeps `tcount`. -/
theorem exec_command_tcount (hi : i.space = .command) (hr : i ≠ .readBit) (hw : ∀ b, i ≠ .writeBit b)
    (h : exec i s = .next t) : t.tcount = s.tcount := by
  obtain (rfl | hi') | (⟨b, rfl⟩ | hi') | hg | rfl | rfl := instr_sides i
  · exact absurd rfl hr
  · rw [hi] at hi'; cases hi'
  · exact absurd rfl (hw b)
  · rw [hi] at hi'; cases hi'
  · obtain ⟨m, n, rfl⟩ := exec_gateOp hg h; rfl
  · cases h; rfl
  · obtain ⟨-, -, rfl⟩ := preload_next h; rfl

theorem decodeCommand_eq_readBit (cmd : Byte) : decodeCommand cmd = some .readBit ↔ cmd = 0x10#8 := by
  revert cmd; decide

theorem decodeCommand_eq_writeBit_false (cmd : Byte) :
    decodeCommand cmd = some (.writeBit false) ↔ cmd = 0x20#8 := by
  revert cmd; decide

theorem readHeldOff_eq_false (s : State) :
    readHeldOff s = false ↔ s.sense = false ∨ s.wr.wstate = 0 := by
  cases hs : s.sense <;> simp [readHeldOff, writeInProgress, hs]

/-- The next step is an advancing call where the oldest operation is a READ_BIT that enters the
dispatcher. -/
theorem State.advancingCall_iff {inp : Input} {rest : List Input} (hq : s.queue = inp :: rest)
    (hd : decodeCommand inp.cmd = some i) : s.advancingCall ↔ i = .readBit ∧ entersRead s := by
  have hcmd : s.pendingWord = some 0x10#8 ↔ i = .readBit := by
    rw [State.pendingWord, hq, List.head?_cons, Option.map_some, Option.some_inj,
      ← decodeCommand_eq_readBit, hd, Option.some_inj]
  rw [State.advancingCall, hcmd, entersRead, readHeldOff_eq_false]

/-- The next step is an accepted falling edge where the oldest operation is a WRITE_BIT 0 that enters
the dispatcher. -/
theorem State.acceptedFallingEdge_iff {inp : Input} {rest : List Input} (hq : s.queue = inp :: rest)
    (hd : decodeCommand inp.cmd = some i) :
    s.acceptedFallingEdge ↔ i = .writeBit false ∧ entersWrite s := by
  have hcmd : s.pendingWord = some 0x20#8 ↔ i = .writeBit false := by
    rw [State.pendingWord, hq, List.head?_cons, Option.map_some, Option.some_inj,
      ← decodeCommand_eq_writeBit_false, hd, Option.some_inj]
  rw [State.acceptedFallingEdge, hcmd, entersWrite]

/-- R33 of a step: the FSM the step enters counts, and a step that enters none keeps `tcount`. -/
theorem step_tcount (h : step s = .next t) :
    (s.advancingCall → ¬ s.acceptedFallingEdge ∧
      CountsBody (s.rd.rstate = 0) s.rd.atLastBodyBit s.tcount t.tcount) ∧
    (s.acceptedFallingEdge → CountsBody (s.wr.wstate = 0) s.wr.atLastBodyBit s.tcount t.tcount) ∧
    (¬ s.advancingCall → ¬ s.acceptedFallingEdge → t.tcount = s.tcount) := by
  obtain ⟨hq, rfl⟩ | ⟨inp, rest, i, hq, hd, he⟩ := step_next h
  · have hidle : t.pendingWord = none := by rw [State.pendingWord, hq]; rfl
    simp [State.advancingCall, State.acceptedFallingEdge, hidle]
  · rw [State.advancingCall_iff hq hd, State.acceptedFallingEdge_iff hq hd]
    by_cases hr : i = .readBit
    · subst hr
      obtain ⟨hcount, hkeep⟩ := exec_readBit_tcount he
      exact ⟨fun ⟨_, ha⟩ => ⟨by simp, hcount ha⟩, fun ⟨hw, _⟩ => (by cases hw),
        fun hn _ => hkeep fun ha => hn ⟨rfl, ha⟩⟩
    · refine ⟨fun ⟨hr', _⟩ => absurd hr' hr, ?_⟩
      by_cases hw : ∃ b, i = .writeBit b
      · obtain ⟨b, rfl⟩ := hw
        obtain ⟨hcount, hkeep⟩ := exec_writeBit_tcount he
        exact ⟨fun ⟨hb, ha⟩ => hcount (by simpa using hb) ha,
          fun _ hn => hkeep fun ⟨hb, ha⟩ => hn ⟨by rw [hb], ha⟩⟩
      · have hw' : ∀ b, i ≠ .writeBit b := fun b hb => hw ⟨b, hb⟩
        exact ⟨fun ⟨hb, _⟩ => absurd hb (hw' false),
          fun _ _ => (exec_command_tcount (decodeCommand_space hd) hr hw' he).trans rfl⟩

/-- Settles O43: a step enters at most one FSM, and that one counts as R33 says. -/
theorem tapeCounterCountsBodyBytes : Obligations.TapeCounterCountsBodyBytes := by
  intro s t h
  obtain ⟨hread, hwrite, hkeep⟩ := step_tcount h
  refine ⟨fun ha => (hread ha).2.cleared, fun ha => (hread ha).2.advanced,
    fun ha => (hwrite ha).cleared, fun ha => (hwrite ha).advanced, fun hnr hnw => ?_⟩
  by_cases ha : s.advancingCall
  · exact (hread ha).2.kept (fun h0 => hnr ⟨ha, .inl h0⟩) fun hb => hnr ⟨ha, .inr hb⟩
  · by_cases hf : s.acceptedFallingEdge
    · exact (hwrite hf).kept (fun h0 => hnw ⟨hf, .inl h0⟩) fun hb => hnw ⟨hf, .inr hb⟩
    · exact hkeep ha hf

end Sys2Proof.Machine
end

section
/-!
The one fault of the machine (20_memory.md R68): a handler faults only where the body length its FSM
has latched is above `BODY_MAX`. The handlers up to the one that latches the length never fault, since
the operation that latches it ends at the first pulse after it at the latest.
-/
namespace Sys2Proof.Machine

variable {c : Config} {i : Instr} {s : State} {p : Bit} {r : Fault}

theorem readFromBodyCks_ne_fault : readFromBodyCks c s ≠ .fault r := by
  rw [readFromBodyCks, rBodyCks]
  split <;> exact nofun

/-- The byte R.BODY reads lies below `rblen` (41_read_fsm.md R177). -/
theorem readFromBody_fault (h : readFromBody c s = .fault r) : c.bodyMax < s.rd.rblen.toNat := by
  rw [readFromBody, rBody] at h
  split at h
  · split at h
    · omega
    · cases h
  · exact absurd h readFromBodyCks_ne_fault

theorem readFromBodyPre_fault (h : readFromBodyPre c s = .fault r) :
    c.bodyMax < s.rd.rblen.toNat := by
  rw [readFromBodyPre, rBodyPre] at h
  split at h
  · cases h
  · rw [Turn.andThen_again] at h
    simpa using readFromBody_fault h

/-- The length R.HDRCKS latches waits for the whole body preamble. -/
theorem readFromHdrCks_ne_fault : readFromHdrCks c s ≠ .fault r := by
  rw [readFromHdrCks, rHdrCks]
  split
  · exact nofun
  · rw [Turn.andThen_again, readFromBodyPre_fresh rfl]
    exact nofun

theorem readFromHeader_ne_fault : readFromHeader c s ≠ .fault r := by
  rw [readFromHeader, rHeader]
  split
  · exact nofun
  · exact readFromHdrCks_ne_fault

theorem readFromPreamble_ne_fault : readFromPreamble c s ≠ .fault r := by
  rw [readFromPreamble, rPreamble]
  split
  · exact nofun
  · exact readFromHeader_ne_fault

theorem readFromIdle_ne_fault : readFromIdle c s ≠ .fault r := readFromPreamble_ne_fault

/-- A read handler faults only on an `rblen` above `BODY_MAX`. -/
theorem exec_readState_fault (hi : i.space = .readState) (h : exec i s = .fault r) :
    Config.machine.bodyMax < s.rd.rblen.toNat := by
  cases i with
  | rIdle => exact absurd h readFromIdle_ne_fault
  | rPreamble => exact absurd h readFromPreamble_ne_fault
  | rHeader => exact absurd h readFromHeader_ne_fault
  | rHdrCks => exact absurd h readFromHdrCks_ne_fault
  | rBodyPre => exact readFromBodyPre_fault h
  | rBody => exact readFromBody_fault h
  | rBodyCks => exact absurd h readFromBodyCks_ne_fault
  | readBit | writeBit _ | reset | preload | setMotor _ | setSense _ | senseToggle => cases hi
  | wIdle | wPreamble | wHeader | wHdrCks | wSkip4 | wUnknown5 | wUnknown6 | wUnknown7 | wBody
  | wBodyCks | wSkip10 | wUnknown11 | wUnknown12 | wStop | wUnknown14 | wUnknown15 => cases hi
  | _ => cases h

/-- A READ_BIT faults only in the handler it advances to (40_interface_ops.md R131). -/
theorem exec_readBit_fault (h : exec .readBit s = .fault r) :
    exec (decodeReadCode s.rd.rstate) (s.setRd { s.rd with rphase := .trail }) = .fault r := by
  rw [exec_readBit, readBit] at h
  split at h
  · cases h
  · split at h
    · cases h
    · split at h
      · cases h
      · cases h
      · rwa [readAdvance_eq_exec] at h

theorem exec_readSide_fault (hi : readSide i) (h : exec i s = .fault r) :
    Config.machine.bodyMax < s.rd.rblen.toNat := by
  obtain rfl | hi := hi
  · simpa using exec_readState_fault (decodeReadCode_space _) (exec_readBit_fault h)
  · exact exec_readState_fault hi h

/-- The snapshot W.STOP takes ends at `wblen` (42_write_fsm.md R210). -/
theorem writeFromStop_fault (h : writeFromStop c p s = .fault r) : c.bodyMax < s.wr.wblen.toNat := by
  rw [writeFromStop, wStop] at h
  split at h
  · split at h
    · assumption
    · cases h
  · cases h

theorem writeFromSkip10_fault (h : writeFromSkip10 c p s = .fault r) :
    c.bodyMax < s.wr.wblen.toNat := by
  rw [writeFromSkip10, wSkip10] at h
  split at h
  · cases h
  · rw [Turn.andThen_again] at h
    simpa using writeFromStop_fault h

theorem writeFromBodyCks_fault (h : writeFromBodyCks c p s = .fault r) :
    c.bodyMax < s.wr.wblen.toNat := by
  rw [writeFromBodyCks, wBodyCks] at h
  split at h
  · cases h
  · rw [Turn.andThen_again] at h
    simpa using writeFromSkip10_fault h

/-- The byte W.BODY completes lies below `wblen` (42_write_fsm.md R207). -/
theorem writeFromBody_fault (h : writeFromBody c p s = .fault r) : c.bodyMax < s.wr.wblen.toNat := by
  rw [writeFromBody, wBody] at h
  split at h
  · rename_i hlt
    by_cases hy : s.wr.wcnt.toNat % 8 = 0 ∧ s.wr.wsync = false
    · rw [wSkipSync_sync hy] at h
      cases h
    · rw [wSkipSync_data hy] at h
      dsimp only at h
      split at h
      · split at h
        · rename_i hi
          have hn := s.wr.wblen.isLt
          have hcnt : (s.wr.wcnt + 1).toNat = s.wr.wcnt.toNat + 1 := Count.toNat_succ (by omega)
          change c.bodyMax ≤ (s.wr.wcnt + 1).toNat / 8 - 1 at hi
          omega
        · cases h
      · cases h
  · rw [Turn.andThen_again] at h
    simpa using writeFromBodyCks_fault h

theorem writeFromSkip4_ne_fault (hc : 0 < c.cksBits) : writeFromSkip4 c p s ≠ .fault r := by
  obtain ⟨wr, hwr⟩ := writeFromSkip4_cursor c p s hc
  rw [hwr]
  exact nofun

theorem writeFromHdrCks_ne_fault (hc : 0 < c.cksBits) : writeFromHdrCks c p s ≠ .fault r := by
  rw [writeFromHdrCks, wHdrCks]
  split
  · exact nofun
  · exact writeFromSkip4_ne_fault hc

theorem writeFromHeader_ne_fault (hc : 0 < c.cksBits) : writeFromHeader c p s ≠ .fault r := by
  rw [writeFromHeader, wHeader]
  split
  · by_cases hy : s.wr.wcnt.toNat % 8 = 0 ∧ s.wr.wsync = false
    · rw [wSkipSync_sync hy]
      exact nofun
    · rw [wSkipSync_data hy]
      dsimp only
      split <;> exact nofun
  · exact writeFromHdrCks_ne_fault hc

theorem writeFromPreamble_ne_fault (hc : 0 < c.cksBits) : writeFromPreamble c p s ≠ .fault r := by
  rw [writeFromPreamble, wPreamble]
  split
  · split <;> exact nofun
  · exact writeFromHeader_ne_fault hc

theorem writeFromIdle_ne_fault (hc : 0 < c.cksBits) : writeFromIdle c p s ≠ .fault r :=
  writeFromPreamble_ne_fault hc

/-- A write handler faults only on a `wblen` above `BODY_MAX`. -/
theorem exec_writeState_fault (hi : i.space = .writeState) (h : exec i s = .fault r) :
    Config.machine.bodyMax < s.wr.wblen.toNat := by
  have hc : 0 < Config.machine.cksBits := by simp
  cases i with
  | wIdle => exact absurd h (writeFromIdle_ne_fault hc)
  | wPreamble => exact absurd h (writeFromPreamble_ne_fault hc)
  | wHeader => exact absurd h (writeFromHeader_ne_fault hc)
  | wHdrCks => exact absurd h (writeFromHdrCks_ne_fault hc)
  | wSkip4 => exact absurd h (writeFromSkip4_ne_fault hc)
  | wBody => exact writeFromBody_fault h
  | wBodyCks => exact writeFromBodyCks_fault h
  | wSkip10 => exact writeFromSkip10_fault h
  | wStop => exact writeFromStop_fault h
  | readBit | writeBit _ | reset | preload | setMotor _ | setSense _ | senseToggle => cases hi
  | rIdle | rPreamble | rHeader | rHdrCks | rUnknown4 | rUnknown5 | rUnknown6 | rBodyPre | rBody
  | rBodyCks | rUnknown10 | rUnknown11 | rUnknown12 | rStop | rUnknown14 | rUnknown15 => cases hi
  | _ => cases h

/-- A WRITE_BIT faults only in the handler its falling edge selects (40_interface_ops.md R132). -/
theorem exec_writeBit_fault {b : Bit} (h : exec (.writeBit b) s = .fault r) :
    exec (decodeWriteCode s.wr.wstate) (s.setWr { s.wr with wline := false }) = .fault r := by
  rw [exec_writeBit, writeBit] at h
  split at h
  · cases h
  · split at h
    · cases h
    · split at h
      · exact (writePulse_eq_exec (s.setWr { s.wr with wline := false })).symm.trans h
      · cases h

theorem exec_writeSide_fault (hi : writeSide i) (h : exec i s = .fault r) :
    Config.machine.bodyMax < s.wr.wblen.toNat := by
  obtain ⟨b, rfl⟩ | hi := hi
  · simpa using exec_writeState_fault (decodeWriteCode_space _) (exec_writeBit_fault h)
  · exact exec_writeState_fault hi h

/-- PRELOAD refuses an image it cannot take; it never faults (40_interface_ops.md R140). -/
theorem preload_ne_fault : preload c s ≠ .fault r := by
  simp only [preload]
  split
  · exact nofun
  · split <;> exact nofun

/-- An instruction faults only on a latched length above `BODY_MAX`, that of its own side. -/
theorem exec_fault (h : exec i s = .fault r) :
    Config.machine.bodyMax < s.rd.rblen.toNat ∨ Config.machine.bodyMax < s.wr.wblen.toNat := by
  obtain hi | hi | hi | rfl | rfl := instr_sides i
  · exact .inl (exec_readSide_fault hi h)
  · exact .inr (exec_writeSide_fault hi h)
  · obtain ⟨b, rfl⟩ | ⟨b, rfl⟩ | rfl := hi <;> cases h
  · cases h
  · exact absurd h preload_ne_fault

/-- A step faults only in the oldest operation. -/
theorem step_fault (h : step s = .fault r) :
    ∃ inp rest i, s.queue = inp :: rest ∧ exec i (s.accept inp.side rest) = .fault r := by
  cases hq : s.queue with
  | nil => simp [step, fetch, hq] at h
  | cons inp rest =>
    cases hd : decodeCommand inp.cmd with
    | none => simp [step, fetch, hq, decode, hd] at h
    | some i => exact ⟨inp, rest, i, rfl, (step_of_queue hq hd).symm.trans h⟩

/-- Settles O38: a fault needs a latched length above `BODY_MAX`, and taking the operation off the
queue changes neither length. -/
theorem fittingLengthsNeverFault : Obligations.FittingLengthsNeverFault := by
  intro s r hrd hwr h
  obtain ⟨inp, rest, i, -, he⟩ := step_fault h
  obtain hlt | hlt := exec_fault he
  · exact absurd hrd (Nat.not_le.2 hlt)
  · exact absurd hwr (Nat.not_le.2 hlt)

end Sys2Proof.Machine
end

section
/-!
The decoder and the encoder are inverse in each of the three spaces (30_encoding.md R103, R104, R112,
R114): a byte decodes to an instruction exactly where it is that instruction's word and the instruction
lives in the space.
-/
namespace Sys2Proof.Machine

variable {i : Instr} {cmd v b : Byte} {code : Code}

/-- A row of R112's table without an operand fixes the whole word. -/
theorem eq_of_and_fullMask (h : cmd &&& 0xFF#8 = v) : v = cmd :=
  h.symm.trans BitVec.and_allOnes

/-- A row of R112's table with an operand fixes the word up to `cmd[0]`. -/
theorem or_bitByte_of_and_operandMask (h : cmd &&& 0xFE#8 = v) :
    v ||| bitByte (cmd.getLsbD 0) = cmd := by
  subst h; revert cmd; decide

/-- R112: a word that carries a row's pattern is the word of the row's operation. -/
theorem encodeByte_of_row {r : CommandRow} (hr : r ∈ commandTable) (h : cmd &&& r.mask = r.pattern) :
    encodeByte (r.build (cmd.getLsbD 0)) = cmd := by
  simp only [commandTable, List.mem_cons, List.not_mem_nil, or_false] at hr
  obtain rfl | rfl | rfl | rfl | rfl | rfl | rfl := hr
  · exact eq_of_and_fullMask h
  · exact or_bitByte_of_and_operandMask h
  · exact eq_of_and_fullMask h
  · exact eq_of_and_fullMask h
  · exact or_bitByte_of_and_operandMask h
  · exact or_bitByte_of_and_operandMask h
  · exact eq_of_and_fullMask h

/-- R112: the words of the commands, and no others, are operations. -/
theorem decodeCommand_eq_some_iff :
    decodeCommand cmd = some i ↔ i.space = .command ∧ encodeByte i = cmd := by
  refine ⟨fun h => ⟨decodeCommand_space h, ?_⟩, ?_⟩
  · rw [decodeCommand, Option.map_eq_some_iff] at h
    obtain ⟨r, hr, rfl⟩ := h
    exact encodeByte_of_row (List.mem_of_find?_eq_some hr) (by simpa using List.find?_some hr)
  · rintro ⟨hi, rfl⟩
    cases i with
    | readBit | reset | preload | senseToggle => rfl
    | writeBit b | setMotor b | setSense b => cases b <;> rfl
    | _ => cases hi

/-- R10: a state code is a byte whose high four bits are zero. -/
theorem stateCode_eq_some_iff : stateCode b = some code ↔ code.setWidth 8 = b := by
  have hcode := code.isLt
  rw [stateCode, ← BitVec.toNat_inj, BitVec.toNat_setWidth]
  split
  · rw [Option.some_inj, ← BitVec.toNat_inj, BitVec.toNat_setWidth]
    omega
  · simp only [reduceCtorEq, false_iff]
    omega

/-- R103, code by code. -/
theorem decodeReadCode_eq_iff :
    decodeReadCode code = i ↔ i.space = .readState ∧ encodeByte i = code.setWidth 8 := by
  refine ⟨?_, ?_⟩
  · rintro rfl
    exact ⟨decodeReadCode_space code, by revert code; decide⟩
  · rintro ⟨hi, h⟩
    have hcode : code = (encodeByte i).setWidth 4 := by rw [h]; simp
    subst hcode
    cases i with
    | rIdle | rPreamble | rHeader | rHdrCks | rUnknown4 | rUnknown5 | rUnknown6 | rBodyPre | rBody
    | rBodyCks | rUnknown10 | rUnknown11 | rUnknown12 | rStop | rUnknown14 | rUnknown15 => rfl
    | _ => cases hi

/-- R104, code by code. -/
theorem decodeWriteCode_eq_iff :
    decodeWriteCode code = i ↔ i.space = .writeState ∧ encodeByte i = code.setWidth 8 := by
  refine ⟨?_, ?_⟩
  · rintro rfl
    exact ⟨decodeWriteCode_space code, by revert code; decide⟩
  · rintro ⟨hi, h⟩
    have hcode : code = (encodeByte i).setWidth 4 := by rw [h]; simp
    subst hcode
    cases i with
    | wIdle | wPreamble | wHeader | wHdrCks | wSkip4 | wUnknown5 | wUnknown6 | wUnknown7 | wBody
    | wBodyCks | wSkip10 | wUnknown11 | wUnknown12 | wStop | wUnknown14 | wUnknown15 => rfl
    | _ => cases hi

/-- Every state handler's word is a state code. -/
theorem encodeByte_eq_setWidth (hi : i.space ≠ .command) :
    ((encodeByte i).setWidth 4).setWidth 8 = encodeByte i := by
  cases i with
  | readBit | writeBit _ | reset | preload | setMotor _ | setSense _ | senseToggle => cases hi rfl
  | _ => rfl

theorem decode_command_cons {rest rest' : List Byte} :
    decode .command (b :: rest) = .ok (i, rest') ↔ decodeCommand b = some i ∧ rest' = rest := by
  cases h : decodeCommand b <;> simp [decode, h, eq_comm]

theorem decode_readState_cons {rest rest' : List Byte} :
    decode .readState (b :: rest) = .ok (i, rest') ↔
      (∃ code, stateCode b = some code ∧ decodeReadCode code = i) ∧ rest' = rest := by
  cases h : stateCode b <;> simp [decode, h, eq_comm]

theorem decode_writeState_cons {rest rest' : List Byte} :
    decode .writeState (b :: rest) = .ok (i, rest') ↔
      (∃ code, stateCode b = some code ∧ decodeWriteCode code = i) ∧ rest' = rest := by
  cases h : stateCode b <;> simp [decode, h, eq_comm]

/-- R114: a byte decodes in a space to the instruction of that space whose word it is. -/
theorem decode_cons_eq_ok_iff {sp : Space} {rest rest' : List Byte} :
    decode sp (b :: rest) = .ok (i, rest') ↔ i.space = sp ∧ encodeByte i = b ∧ rest' = rest := by
  rw [← and_assoc]
  cases sp with
  | command => rw [decode_command_cons, decodeCommand_eq_some_iff]
  | readState =>
    rw [decode_readState_cons]
    refine and_congr_left' ⟨?_, fun ⟨hi, hb⟩ => ?_⟩
    · rintro ⟨code, hb, hcode⟩
      rw [stateCode_eq_some_iff] at hb
      rwa [decodeReadCode_eq_iff, hb] at hcode
    · have hw : ((encodeByte i).setWidth 4).setWidth 8 = encodeByte i :=
        encodeByte_eq_setWidth (by simp [hi])
      exact ⟨_, stateCode_eq_some_iff.2 (hw.trans hb), decodeReadCode_eq_iff.2 ⟨hi, hw.symm⟩⟩
  | writeState =>
    rw [decode_writeState_cons]
    refine and_congr_left' ⟨?_, fun ⟨hi, hb⟩ => ?_⟩
    · rintro ⟨code, hb, hcode⟩
      rw [stateCode_eq_some_iff] at hb
      rwa [decodeWriteCode_eq_iff, hb] at hcode
    · have hw : ((encodeByte i).setWidth 4).setWidth 8 = encodeByte i :=
        encodeByte_eq_setWidth (by simp [hi])
      exact ⟨_, stateCode_eq_some_iff.2 (hw.trans hb), decodeWriteCode_eq_iff.2 ⟨hi, hw.symm⟩⟩

/-- Every term of `Instr` is an instruction (93_implementation_defined.md U4). -/
theorem Instr.wellFormed_eq_true (i : Instr) : i.wellFormed = true := by
  cases i <;> rfl

/-- Settles O1: both directions are the equivalence `decode_cons_eq_ok_iff`. -/
theorem decodingAndEncodingAgree : Obligations.DecodingAndEncodingAgree := by
  refine ⟨fun i rest _ => decode_cons_eq_ok_iff.2 ⟨rfl, rfl, rfl⟩, fun sp b rest rest' i h => ?_⟩
  obtain ⟨hsp, hb, hrest⟩ := decode_cons_eq_ok_iff.1 h
  exact ⟨hsp, congrArg (fun w => [w]) hb, hrest, Instr.wellFormed_eq_true i⟩

/-- Settles O2: a command word is an operation where it is a command's word, and the commands with
their operands are the ten of the table. -/
theorem commandWordsAreExactlyTheTables : Obligations.CommandWordsAreExactlyTheTables := by
  intro cmd i
  rw [decodeCommand_eq_some_iff]
  cases i with
  | readBit | reset | preload | senseToggle => simp [Instr.space, encodeByte, eq_comm]
  | writeBit b | setMotor b | setSense b =>
    cases b <;> simp [Instr.space, encodeByte, bitByte, eq_comm]
  | _ => simp [Instr.space]

/-- Settles O3: each word runs through the decoder. -/
theorem writtenOutWordsDecode : Obligations.WrittenOutWordsDecode :=
  ⟨rfl, rfl, rfl, rfl, rfl, rfl, rfl, rfl, rfl, rfl⟩

/-- The word of a state handler is no command (30_encoding.md R112). -/
theorem decodeCommand_encodeByte_eq_none (hi : i.space ≠ .command) :
    decodeCommand (encodeByte i) = none := by
  cases i with
  | readBit | writeBit _ | reset | preload | setMotor _ | setSense _ | senseToggle => cases hi rfl
  | _ => rfl

/-- A command's word is placed at the head of the queue. -/
theorem withFetchWord_command (s : State) (n : Nat) (hi : i.space = .command) :
    s.withFetchWord n (encodeByte i).toNat = s.pushCommand (encodeByte i) := by
  simp only [State.withFetchWord, BitVec.ofNat_toNat, BitVec.setWidth_eq,
    decodeCommand_eq_some_iff.2 ⟨hi, rfl⟩]

/-- A read handler's word is placed in `rstate` of an advancing call (log entry 7). -/
theorem withFetchWord_readState (s : State) (n : Nat) (hi : i.space = .readState) :
    s.withFetchWord n (encodeByte i).toNat = s.placeReadCode ((encodeByte i).setWidth 4) := by
  have hne : i.space ≠ .command := by simp [hi]
  simp only [State.withFetchWord, BitVec.ofNat_toNat, BitVec.setWidth_eq,
    decodeCommand_encodeByte_eq_none hne, stateCode_eq_some_iff.2 (encodeByte_eq_setWidth hne)]

/-- The word just pushed is the next step's, with the side inputs the port shows. -/
theorem step_pushCommand {s : State} (hd : decodeCommand cmd = some i) :
    step (s.pushCommand cmd) = exec i { s with rdData := none } :=
  step_of_queue (inp := ⟨cmd, s.port⟩) (rest := s.queue) rfl hd

/-- No write holds the reader off where a read code is placed (40_interface_ops.md R131). -/
theorem readHeldOff_placed (s : State) :
    readHeldOff { s with sense := s.sense && !writeInProgress s } = false := by
  change (s.sense && !writeInProgress s && writeInProgress s) = false
  rw [Bool.and_assoc, Bool.not_and_self, Bool.and_false]

/-- Settles O10: a command is the head of the queue; a read code stands in an advancing call, which
enters its handler. -/
theorem placedWordIsExecutedNext : Obligations.PlacedWordIsExecutedNext := by
  refine ⟨fun s i hi => ?_, fun s i hi => ?_⟩
  · rw [withFetchWord_command s 8 hi, step_pushCommand (decodeCommand_eq_some_iff.2 ⟨hi, rfl⟩)]
  · have hcode : decodeReadCode ((encodeByte i).setWidth 4) = i :=
      decodeReadCode_eq_iff.2 ⟨hi, (encodeByte_eq_setWidth (by simp [hi])).symm⟩
    rw [withFetchWord_readState s 8 hi, State.placeReadCode,
      step_pushCommand ((decodeCommand_eq_readBit _).2 rfl)]
    refine (exec_readBit_advancing ⟨rfl, ?_, rfl⟩).trans ?_
    · exact readHeldOff_placed s
    · exact congrArg (fun j => exec j _) hcode

end Sys2Proof.Machine
end

section
/-!
The preambles as runs of equal pulses (30_encoding.md R95, R98), the checksum of a section of equal
bytes (R97), and the file of an image (R106).
-/
namespace Sys2Proof.Machine

/-- A run of positions at which a pulse function has one value. -/
theorem map_range'_eq_replicate {f : Nat → Bit} {a n : Nat} {b : Bit}
    (h : ∀ k, a ≤ k → k < a + n → f k = b) : (List.range' a n).map f = List.replicate n b := by
  rw [List.map_eq_replicate_iff.2, List.length_range']
  intro k hk
  obtain ⟨hlo, hhi⟩ := List.mem_range'_1.1 hk
  exact h k hlo hhi

/-- R95: gap, the two halves of the tape mark, and one LONG pulse. -/
theorem map_preamblePulse {gap mark : Nat} (hm : mark % 2 = 0) :
    (List.range (gap + mark + 1)).map (preamblePulse gap mark) =
      List.replicate gap short ++ List.replicate (mark / 2) long ++ List.replicate (mark / 2) short
        ++ [long] := by
  have hsplit : gap + mark + 1 = gap + mark / 2 + mark / 2 + 1 := by omega
  rw [List.range_eq_range', hsplit]
  simp only [← List.range'_append_1, List.map_append, Nat.zero_add]
  congr 1; congr 1; congr 1
  · exact map_range'_eq_replicate fun k _ hk => by rw [preamblePulse, if_pos (by omega)]
  · exact map_range'_eq_replicate fun k _ hk => by
      rw [preamblePulse, if_neg (by omega), if_pos (by omega)]
  · exact map_range'_eq_replicate fun k _ hk => by
      rw [preamblePulse, if_neg (by omega), if_neg (by omega), if_pos (by omega)]
  · exact map_range'_eq_replicate fun k _ hk => by
      rw [preamblePulse, if_neg (by omega), if_neg (by omega), if_neg (by omega)]

/-- R98: after its first LONG pulse the body preamble has the form of the big one. -/
theorem bprePulse_succ (c : Config) (k : Nat) :
    bprePulse c (k + 1) = preamblePulse c.rSgap c.stm k := by
  have hshift (n : Nat) : k + 1 < 1 + n ↔ k < n := by omega
  simp only [bprePulse, preamblePulse, Nat.add_assoc, hshift, Nat.succ_ne_zero, if_false]

theorem bodyPreamble_eq_cons (c : Config) :
    bodyPreamble c = long :: (List.range (c.rSgap + c.stm + 1)).map (preamblePulse c.rSgap c.stm) := by
  have hlen : c.rBpreLen = c.rSgap + c.stm + 1 + 1 := by rw [Config.rBpreLen]; omega
  rw [bodyPreamble, hlen, List.range_succ_eq_map, List.map_cons, List.map_map]
  exact congrArg _ (List.map_congr_left fun k _ => bprePulse_succ c k)

/-- Settles O4: the big preamble is one preamble, the body preamble a LONG pulse before one. -/
theorem preamblesAreGapMarkAndLong : Obligations.PreamblesAreGapMarkAndLong := by
  intro c hbtm hstm
  refine ⟨map_preamblePulse hbtm, ?_⟩
  rw [bodyPreamble_eq_cons, map_preamblePulse hstm]
  simp

theorem checksumOf_replicate (n : Nat) (b : Byte) :
    checksumOf (List.replicate n b) = BitVec.ofNat 16 (n * onesOfByte b) := by
  rw [checksumOf, onesOf, List.map_replicate, List.sum_replicate, smul_eq_mul]

/-- Settles O6: a byte 0xFF counts its eight data bits, a byte 0 none. -/
theorem checksumCountsDataBitsOnly : Obligations.ChecksumCountsDataBitsOnly := by
  intro n
  have hff : onesOfByte 0xFF#8 = 8 := by decide
  have h00 : onesOfByte 0#8 = 0 := by decide
  rw [checksumOf_replicate, checksumOf_replicate, hff, h00, Nat.mul_comm]
  exact ⟨rfl, rfl⟩

/-- R140: the two reads of the walker give an image where both are as long as they have to be. -/
theorem imageOfFile_append {c : Config} {header rest : List Byte} (hh : header.length = c.hdrBytes) :
    imageOfFile c (header ++ rest) =
      if (rest.take (imageLength c header).toNat).length = (imageLength c header).toNat then
        some ⟨header, rest.take (imageLength c header).toNat⟩ else none := by
  simp only [imageOfFile, ← hh, List.take_left, List.drop_left, true_and]

/-- R140: a file shorter than a header block gives none. -/
theorem imageOfFile_short {c : Config} {file : List Byte} (h : file.length < c.hdrBytes) :
    imageOfFile c file = none := by
  rw [imageOfFile, List.take_of_length_le h.le]
  exact if_neg fun hlen => h.ne hlen.1

/-- Settles O7: what follows the body is not read; a cut-off file ends in the header or in the body. -/
theorem imageFileIsHeaderThenBody : Obligations.ImageFileIsHeaderThenBody := by
  intro img rest hcons
  simp only [imageConsistent, Bool.and_eq_true, decide_eq_true_eq] at hcons
  obtain ⟨hh, hb⟩ := hcons
  refine ⟨?_, fun k hk => ?_⟩
  · rw [imageToFile, List.append_assoc, imageOfFile_append hh, ← hb, List.take_left, if_pos rfl]
  · rw [imageToFile, List.take_append]
    by_cases hshort : k < img.header.length
    · refine imageOfFile_short ?_
      rw [List.length_append, List.length_take, List.length_take]
      omega
    · rw [List.take_of_length_le (Nat.le_of_not_lt hshort), imageOfFile_append hh, if_neg]
      rw [Config.machine_hdrBytes] at hh
      rw [List.length_take, List.length_take]
      omega

end Sys2Proof.Machine
end

section
/-!
Runs of pulses. Either FSM takes a state and a pulse to the next state; a run is a list of such steps.
The rules here serve both: a run by position, one run after another, and a run entered through a
fall-through, where a state acts on its next pulse as the first state of the next section does.
-/
namespace Sys2Proof.Machine

/-- The states a list of pulses leads through, one step of `R` a pulse. -/
inductive PulseRun (R : State → Bit → State → Prop) : State → List Bit → State → Prop
  | nil (a : State) : PulseRun R a [] a
  | cons {a b d : State} {p : Bit} {ps : List Bit} (h : R a p b) (hr : PulseRun R b ps d) :
      PulseRun R a (p :: ps) d

/-- `a` acts on its next pulse as `a'` does. -/
def ActsAs (R : State → Bit → State → Prop) (a a' : State) : Prop := ∀ p d, R a' p d → R a p d

variable {R : State → Bit → State → Prop} {a a' b b' d : State} {ps qs : List Bit}

theorem PulseRun.append (h : PulseRun R a ps b) (h' : PulseRun R b qs d) :
    PulseRun R a (ps ++ qs) d := by
  induction h with
  | nil => exact h'
  | cons hstep _ ih => exact .cons hstep (ih h')

/-- A fall-through before a run. -/
theorem PulseRun.of_actsAs (ha : ActsAs R a a') (h : PulseRun R a' ps b) (hps : ps ≠ []) :
    PulseRun R a ps b := by
  cases h with
  | nil => exact absurd rfl hps
  | cons hstep hr => exact .cons (ha _ _ hstep) hr

/-- A run, the fall-through at its end, and the run of the sections after it. -/
theorem PulseRun.fallThrough (h : PulseRun R a ps b) (hb : ActsAs R b b') (h' : PulseRun R b' qs d)
    (hqs : qs ≠ []) : PulseRun R a (ps ++ qs) d :=
  h.append (h'.of_actsAs hb hqs)

/-- A run given by the state at each position. -/
theorem PulseRun.of_positions (f : Nat → State)
    (h : ∀ k (hk : k < ps.length), R (f k) ps[k] (f (k + 1))) :
    PulseRun R (f 0) ps (f ps.length) := by
  induction ps generalizing f with
  | nil => exact .nil _
  | cons p ps ih =>
    refine .cons (h 0 (by simp)) (ih (fun k => f (k + 1)) fun k hk => ?_)
    exact h (k + 1) (by simpa using hk)

/-- A run of the pulses `g 0` to `g (n - 1)`. -/
theorem PulseRun.of_range {n : Nat} {g : Nat → Bit} (f : Nat → State)
    (h : ∀ k, k < n → R (f k) (g k) (f (k + 1))) : PulseRun R (f 0) ((List.range n).map g) (f n) := by
  have hrun := PulseRun.of_positions (R := R) (ps := (List.range n).map g) f fun k hk => by
    rw [List.getElem_map, List.getElem_range]
    exact h k (by simpa using hk)
  rwa [List.length_map, List.length_range] at hrun

/-- A byte frame: the sync pulse, then the states after each data bit. -/
theorem PulseRun.of_byteFrame {byte : Byte} (f : Nat → State) (hsync : R a long (f 0))
    (hbit : ∀ k, k < 8 → R (f k) (byteBit byte k) (f (k + 1))) :
    PulseRun R a (byteFrame byte) (f 8) :=
  .cons hsync (.of_range f hbit)

/-- A section given by the state at each byte boundary. -/
theorem PulseRun.of_sectionFrames {bytes : List Byte} (f : Nat → State)
    (h : ∀ k (hk : k < bytes.length), PulseRun R (f k) (byteFrame bytes[k]) (f (k + 1))) :
    PulseRun R (f 0) (sectionFrames bytes) (f bytes.length) := by
  induction bytes generalizing f with
  | nil => exact .nil _
  | cons b bs ih =>
    refine .append (h 0 (by simp)) (ih (fun k => f (k + 1)) fun k hk => ?_)
    exact h (k + 1) (by simpa using hk)

/-- The data bits equal to 1 among the first `k` of a byte. -/
def onesBefore (byte : Byte) (k : Nat) : Nat := ((List.range k).filter (byteBit byte)).length

@[simp] theorem onesBefore_zero (byte : Byte) : onesBefore byte 0 = 0 := rfl

theorem onesBefore_eight (byte : Byte) : onesBefore byte 8 = onesOfByte byte := rfl

/-- One more data bit of a running checksum (10_state.md R26, R38). -/
theorem countOne_onesBefore (sum : Half) (byte : Byte) (k : Nat) :
    countOne (sum + BitVec.ofNat 16 (onesBefore byte k)) (byteBit byte k) =
      sum + BitVec.ofNat 16 (onesBefore byte (k + 1)) := by
  rw [onesBefore, onesBefore, List.range_succ, List.filter_append, List.length_append, countOne]
  cases h : byteBit byte k
  · simp [h]
  · simp [h, BitVec.ofNat_add, BitVec.add_assoc]

theorem onesOf_take_succ (bytes : List Byte) {k : Nat} (hk : k < bytes.length) :
    onesOf (bytes.take (k + 1)) = onesOf (bytes.take k) + onesOfByte bytes[k] := by
  rw [onesOf, onesOf, List.take_succ_eq_append_getElem hk, List.map_append, List.sum_append]
  simp

end Sys2Proof.Machine
end

section
/-!
One complete read as a run of pulses (41_read_fsm.md R170 to R179): each section of the stream from its
first to its last pulse, and the fall-through to the next.
-/
namespace Sys2Proof.Machine

/-- The state with the read cursor at phase `ph` and `rd_data` = `v`. -/
def State.phased (a : State) (ph : Phase) (v : Bit) : State :=
  (a.setRd { a.rd with rphase := ph }).answer v

/-- The advancing call at `a` returns the pulse symbol `p` and leaves `b`; what lets the next call in is
kept. -/
structure ReadsPulse (c : Config) (a : State) (p : Bit) (b : State) : Prop where
  advance : readAdvance c (a.phased .trail true) = .next (b.phased .trail p)
  motor   : b.motor = a.motor := by rfl
  heldOff : readHeldOff b = readHeldOff a := by rfl

/-- The base state `s` inside a read: the state code, `rcnt`, `rsync`, `rsum`, `rblen`, `rcks` and
`tcount`. -/
def State.readAt (s : State) (code : Code) (m : Nat) (y : Bit) (sum len cks n : Half) : State :=
  (s.setRd ⟨code, .lead, BitVec.ofNat 32 m, y, sum, len, cks⟩).setTcount n

/-- `v` advanced by `x` where `on` says that this counter counts. -/
def addIf (on : Bool) (v : Half) (x : Nat) : Half := if on then v + BitVec.ofNat 16 x else v

@[simp] theorem addIf_false (v : Half) (x : Nat) : addIf false v x = v := rfl

theorem addIf_true_zero (x : Nat) : addIf true 0 x = BitVec.ofNat 16 x := BitVec.zero_add _

@[simp] theorem addIf_zero (on : Bool) (v : Half) : addIf on v 0 = v := by
  cases on <;> simp [addIf]

@[simp] theorem addIf_addIf (on : Bool) (v : Half) (x y : Nat) :
    addIf on (addIf on v x) y = addIf on v (x + y) := by
  cases on <;> simp [addIf, BitVec.ofNat_add, BitVec.add_assoc]

variable {c : Config} {s a a' : State} {code : Code} {m j k : Nat} {y : Bit}
  {sum len cks n : Half} {bytes : List Byte} {counted isbody : Bool}

theorem actsAs_of_readAdvance
    (h : readAdvance c (a.phased .trail true) = readAdvance c (a'.phased .trail true))
    (hm : a'.motor = a.motor) (hh : readHeldOff a' = readHeldOff a) : ActsAs (ReadsPulse c) a a' :=
  fun _ _ hp => ⟨h.trans hp.advance, hp.motor.trans hm, hp.heldOff.trans hh⟩

theorem readAt_rcnt (hm : m < 2 ^ 32) :
    ((s.readAt code m y sum len cks n).phased .trail true).rd.rcnt.toNat = m :=
  Nat.mod_eq_of_lt hm

/-- In the section of state `code` the advancing call sends the byte frames of `bytes`. -/
def SendsFrames (c : Config) (s : State) (code : Code) (len cks : Half) (bytes : List Byte)
    (counted isbody : Bool) : Prop :=
  ∀ ⦃m : Nat⦄ ⦃y : Bit⦄ ⦃sum n : Half⦄ (h : m < 8 * bytes.length),
    readAdvance c ((s.readAt code m y sum len cks n).phased .trail true) =
      .next (rByteFrame (bytes[m / 8]'(by omega)) counted isbody
        ((s.readAt code m y sum len cks n).phased .trail true))

/-- The state before data bit `k` of byte `j`, for `k` = 8 the byte boundary after it. -/
def State.readBitAt (s : State) (code : Code) (len cks : Half) (counted isbody : Bool) (byte : Byte)
    (sum n : Half) (j k : Nat) : State :=
  s.readAt code (8 * j + k) (decide (k < 8)) (addIf counted sum (onesBefore byte k)) len cks
    (addIf isbody n (k / 8))

theorem SendsFrames.sync (h : SendsFrames c s code len cks bytes counted isbody)
    (hlen : 8 * bytes.length < 2 ^ 32) (hj : j < bytes.length) :
    ReadsPulse c (s.readAt code (8 * j) false sum len cks n) long
      (s.readBitAt code len cks counted isbody bytes[j] sum n j 0) where
  advance := by
    rw [h (by omega), rByteFrame_sync ⟨by rw [readAt_rcnt (by omega)]; omega, rfl⟩]
    simp only [State.readBitAt, onesBefore_zero, addIf_zero, Nat.zero_div, Nat.add_zero]
    rfl

/-- A running checksum that counts, or not, after one more data bit. -/
theorem addIf_countOne (on : Bool) (v : Half) (byte : Byte) (k : Nat) :
    (if on then countOne (addIf on v (onesBefore byte k)) (byteBit byte k)
      else addIf on v (onesBefore byte k)) = addIf on v (onesBefore byte (k + 1)) := by
  cases on
  · rfl
  · exact countOne_onesBefore v byte k

/-- A section counter counts up. -/
theorem Count.ofNat_succ (m : Nat) : BitVec.ofNat 32 m + 1 = BitVec.ofNat 32 (m + 1) :=
  (BitVec.ofNat_add m 1).symm

/-- Of the positions after a data bit of byte `j`, the last is the byte boundary. -/
theorem byteComplete_ofNat (j : Nat) (hk : k < 8) :
    byteComplete (BitVec.ofNat 32 (8 * j + k + 1)) = decide (k = 7) := by
  rw [byteComplete, BitVec.toNat_ofNat, decide_eq_decide]
  omega

/-- The sync flag after data bit `k` (41_read_fsm.md R171, 42_write_fsm.md R204). -/
theorem sync_after_bit (j : Nat) (hk : k < 8) :
    (if byteComplete (BitVec.ofNat 32 (8 * j + k + 1)) = true then false else decide (k < 8)) =
      decide (k + 1 < 8) := by
  rw [byteComplete_ofNat j hk]
  by_cases h7 : k = 7
  · simp [h7]
  · rw [if_neg (by simpa using h7), decide_eq_decide]
    omega

/-- The tape counter after data bit `k` (41_read_fsm.md R171). -/
theorem tcount_after_bit (j : Nat) (isbody : Bool) (n : Half) (hk : k < 8) :
    (if (byteComplete (BitVec.ofNat 32 (8 * j + k + 1)) && isbody) = true then addIf isbody n (k / 8) + 1
      else addIf isbody n (k / 8)) = addIf isbody n ((k + 1) / 8) := by
  rw [byteComplete_ofNat j hk]
  by_cases h7 : k = 7
  · subst h7; cases isbody <;> simp [addIf]
  · rw [if_neg (by simp [h7]), Nat.div_eq_of_lt hk, Nat.div_eq_of_lt (by omega)]

theorem SendsFrames.bit (h : SendsFrames c s code len cks bytes counted isbody)
    (hlen : 8 * bytes.length < 2 ^ 32) (hj : j < bytes.length) (hk : k < 8) :
    ReadsPulse c (s.readBitAt code len cks counted isbody bytes[j] sum n j k) (byteBit bytes[j] k)
      (s.readBitAt code len cks counted isbody bytes[j] sum n j (k + 1)) where
  advance := by
    have hbyte : (8 * j + k) / 8 = j := by omega
    have hbit : (8 * j + k) % 8 = k := by omega
    have hsync : decide (k < 8) ≠ false := by simp [hk]
    rw [State.readBitAt, h (by omega), rByteFrame_bit fun h0 => hsync h0.2,
      readAt_rcnt (by omega), hbit]
    simp only [State.readBitAt, State.readAt, State.phased, State.answer_rd, State.answer_tcount,
      State.setRd_rd, State.setTcount_rd, State.setTcount_tcount, State.setRd_tcount,
      addIf_countOne, Count.ofNat_succ, hbyte, sync_after_bit j hk, tcount_after_bit j isbody n hk]
    rfl

/-- A whole section: every byte's frame, the running checksum and `tcount` advanced where they count. -/
theorem SendsFrames.run (h : SendsFrames c s code len cks bytes counted isbody)
    (hlen : 8 * bytes.length < 2 ^ 32) (sum n : Half) :
    PulseRun (ReadsPulse c) (s.readAt code 0 false sum len cks n) (sectionFrames bytes)
      (s.readAt code (8 * bytes.length) false (addIf counted sum (onesOf bytes)) len cks
        (addIf isbody n bytes.length)) := by
  have hrun := PulseRun.of_sectionFrames (R := ReadsPulse c) (bytes := bytes) (fun j =>
    s.readAt code (8 * j) false (addIf counted sum (onesOf (bytes.take j))) len cks (addIf isbody n j))
    fun j hj => by
      have hframe := PulseRun.of_byteFrame
        (s.readBitAt code len cks counted isbody bytes[j] (addIf counted sum (onesOf (bytes.take j)))
          (addIf isbody n j) j) (h.sync hlen hj) fun k hk => h.bit hlen hj hk
      rw [State.readBitAt, addIf_addIf, addIf_addIf, onesBefore_eight, ← onesOf_take_succ _ hj] at hframe
      exact hframe
  simpa [onesOf] using hrun

theorem readAt_rblen :
    ((s.readAt code m y sum len cks n).phased .trail true).rd.rblen = len := rfl

/-- A preamble pulse counts. -/
theorem readAt_count (p : Bit) :
    (((s.readAt code m y sum len cks n).phased .trail true).setRd
      { ((s.readAt code m y sum len cks n).phased .trail true).rd with
        rcnt := ((s.readAt code m y sum len cks n).phased .trail true).rd.rcnt + 1 }).answer p =
      (s.readAt code (m + 1) y sum len cks n).phased .trail p := by
  rw [State.readAt, State.readAt, ← Count.ofNat_succ]
  rfl

/-- R.PREAMBLE sends the big preamble (41_read_fsm.md R173). -/
theorem bigPreamble_run (hc : c.rPreLen < 2 ^ 32) :
    PulseRun (ReadsPulse c) (s.readAt 1 0 false sum len cks n) (bigPreamble c)
      (s.readAt 1 c.rPreLen false sum len cks n) := by
  refine .of_range (fun m => s.readAt 1 m false sum len cks n) fun m hm => ⟨?_, rfl, rfl⟩
  change readFromPreamble c _ = _
  rw [readFromPreamble, rPreamble, readAt_rcnt (hm.trans hc), if_pos hm, readAt_count]
  rfl

/-- R.BODYPRE sends the body preamble (41_read_fsm.md R176). -/
theorem bodyPreamble_run (hc : c.rBpreLen < 2 ^ 32) :
    PulseRun (ReadsPulse c) (s.readAt 7 0 false sum len cks n) (bodyPreamble c)
      (s.readAt 7 c.rBpreLen false sum len cks n) := by
  refine .of_range (fun m => s.readAt 7 m false sum len cks n) fun m hm => ⟨?_, rfl, rfl⟩
  change readFromBodyPre c _ = _
  rw [readFromBodyPre, rBodyPre, readAt_rcnt (hm.trans hc), if_pos hm, readAt_count]
  rfl

theorem Memory.getElem_bytes (mem : Memory) (size i : Nat) (h : i < (mem.bytes size).length) :
    (mem.bytes size)[i] = mem.read i := by
  simp [Memory.bytes]

/-- R.HEADER sends the header buffer, counted (41_read_fsm.md R174). -/
theorem sendsFrames_header (hc : c.hdrBits < 2 ^ 32) :
    SendsFrames c s 2 len cks (s.header.bytes c.hdrBytes) true false := by
  intro m y sum n h
  have hm : m < c.hdrBits := by rwa [Memory.bytes_length] at h
  change readFromHeader c _ = _
  rw [readFromHeader, rHeader, readAt_rcnt (hm.trans hc), if_pos hm, Memory.getElem_bytes]
  rfl

/-- The byte of a checksum under transmission (41_read_fsm.md R175). -/
theorem checksumByte_eq_getElem (cks : Half) {m : Nat} (h : m / 8 < [highByte cks, lowByte cks].length) :
    checksumByte cks m = [highByte cks, lowByte cks][m / 8] := by
  rw [checksumByte]
  by_cases h8 : m < 8
  · simp [h8, Nat.div_eq_of_lt h8]
  · have h1 : m / 8 = 1 := by simp at h; omega
    simp [h8, h1]

/-- R.HDRCKS sends the latched checksum, uncounted (41_read_fsm.md R175). -/
theorem sendsFrames_hdrCks (hc : c.cksBits = 16) :
    SendsFrames c s 3 len cks [highByte cks, lowByte cks] false false := by
  intro m y sum n h
  have hm : m < 16 := h
  change readFromHdrCks c _ = _
  rw [readFromHdrCks, rHdrCks, readAt_rcnt (by omega), if_pos (by rwa [hc]),
    ← checksumByte_eq_getElem cks]
  rfl

/-- R.BODYCKS sends the latched checksum, uncounted (41_read_fsm.md R178). -/
theorem sendsFrames_bodyCks (hc : c.cksBits = 16) :
    SendsFrames c s 9 len cks [highByte cks, lowByte cks] false false := by
  intro m y sum n h
  have hm : m < 16 := h
  change readFromBodyCks c _ = _
  rw [readFromBodyCks, rBodyCks, readAt_rcnt (by omega), if_pos (by rwa [hc]),
    ← checksumByte_eq_getElem cks]
  rfl

/-- R.BODY sends the latched number of body bytes, counted, and `tcount` counts them
(41_read_fsm.md R177). -/
theorem sendsFrames_body (hb : len.toNat ≤ c.bodyMax) :
    SendsFrames c s 8 len cks (s.body.bytes len.toNat) true true := by
  intro m y sum n h
  have hm : m < 8 * len.toNat := by rwa [Memory.bytes_length] at h
  have hlen := len.isLt
  change readFromBody c _ = _
  rw [readFromBody, rBody, readAt_rblen, readAt_rcnt (by omega), if_pos hm, if_neg (by omega),
    Memory.getElem_bytes]
  rfl

theorem checksumFrames_eq_sectionFrames (v : Half) :
    checksumFrames v = sectionFrames [highByte v, lowByte v] := by
  rw [checksumFrames, sectionFrames_cons, sectionFrames_cons, sectionFrames_nil, List.append_nil]

/-- R.IDLE clears the scratch and acts as the preamble (41_read_fsm.md R172). -/
theorem actsAs_preamble : ActsAs (ReadsPulse c) ((s.setRd ReadCursor.zero).setTcount n)
    (s.readAt 1 0 false 0 0 0 0) :=
  actsAs_of_readAdvance rfl rfl rfl

/-- The fall-through of R.PREAMBLE (41_read_fsm.md R173). -/
theorem actsAs_header (hc : c.rPreLen < 2 ^ 32) :
    ActsAs (ReadsPulse c) (s.readAt 1 c.rPreLen false sum len cks n)
      (s.readAt 2 0 false sum len cks n) := by
  refine actsAs_of_readAdvance ?_ rfl rfl
  change readFromPreamble c _ = _
  rw [readFromPreamble, rPreamble, readAt_rcnt hc, if_neg (Nat.lt_irrefl _)]
  rfl

/-- The fall-through of R.HEADER, which latches the checksum (41_read_fsm.md R174). -/
theorem actsAs_hdrCks (hc : c.hdrBits < 2 ^ 32) :
    ActsAs (ReadsPulse c) (s.readAt 2 c.hdrBits false sum len cks n)
      (s.readAt 3 0 false sum len sum n) := by
  refine actsAs_of_readAdvance ?_ rfl rfl
  change readFromHeader c _ = _
  rw [readFromHeader, rHeader, readAt_rcnt hc, if_neg (Nat.lt_irrefl _)]
  rfl

/-- The fall-through of R.HDRCKS, which latches the declared length (41_read_fsm.md R175). -/
theorem actsAs_bodyPre (hc : c.cksBits = 16) :
    ActsAs (ReadsPulse c) (s.readAt 3 16 false sum len cks n)
      (s.readAt 7 0 false 0 (declaredLength c s.header) cks n) := by
  refine actsAs_of_readAdvance ?_ rfl rfl
  change readFromHdrCks c _ = _
  rw [readFromHdrCks, rHdrCks, readAt_rcnt (by decide), if_neg (by rw [hc]; decide)]
  rfl

/-- The fall-through of R.BODYPRE (41_read_fsm.md R176). -/
theorem actsAs_body (hc : c.rBpreLen < 2 ^ 32) :
    ActsAs (ReadsPulse c) (s.readAt 7 c.rBpreLen false sum len cks n)
      (s.readAt 8 0 false sum len cks n) := by
  refine actsAs_of_readAdvance ?_ rfl rfl
  change readFromBodyPre c _ = _
  rw [readFromBodyPre, rBodyPre, readAt_rcnt hc, if_neg (Nat.lt_irrefl _)]
  rfl

/-- The fall-through of R.BODY, which latches the checksum (41_read_fsm.md R177). -/
theorem actsAs_bodyCks :
    ActsAs (ReadsPulse c) (s.readAt 8 (8 * len.toNat) false sum len cks n)
      (s.readAt 9 0 false sum len sum n) := by
  have hlen := len.isLt
  refine actsAs_of_readAdvance ?_ rfl rfl
  change readFromBody c _ = _
  rw [readFromBody, rBody, readAt_rblen, readAt_rcnt (by omega), if_neg (Nat.lt_irrefl _)]
  rfl

/-- The fall-through of R.BODYCKS to R.STOP (41_read_fsm.md R178, R179). -/
theorem readAdvance_stop (hc : c.cksBits = 16) :
    readAdvance c ((s.readAt 9 16 false sum len cks n).phased .trail true) =
      .next (rStop (s.setTcount n)) := by
  change readFromBodyCks c _ = _
  rw [readFromBodyCks, rBodyCks, readAt_rcnt (by decide), if_neg (by rw [hc]; decide)]
  rfl

theorem checksumFrames_ne_nil (v : Half) : checksumFrames v ≠ [] := by
  simp [checksumFrames, byteFrame]

/-- A checksum section, in either state. -/
theorem SendsFrames.checksum_run
    (h : SendsFrames c s code len cks [highByte cks, lowByte cks] false false) :
    PulseRun (ReadsPulse c) (s.readAt code 0 false sum len cks n) (checksumFrames cks)
      (s.readAt code 16 false sum len cks n) := by
  rw [checksumFrames_eq_sectionFrames]
  exact h.run (show 8 * 2 < 2 ^ 32 by decide) sum n

/-- The header section ends with the header's checksum in `rsum`. -/
theorem header_run (hc : c.hdrBits < 2 ^ 32) :
    PulseRun (ReadsPulse c) (s.readAt 2 0 false 0 len cks n)
      (sectionFrames (s.header.bytes c.hdrBytes))
      (s.readAt 2 c.hdrBits false (checksumOf (s.header.bytes c.hdrBytes)) len cks n) := by
  have hlen : 8 * (s.header.bytes c.hdrBytes).length = c.hdrBits := by rw [Memory.bytes_length]; rfl
  have hrun := (sendsFrames_header (s := s) (len := len) (cks := cks) hc).run (by rwa [hlen]) 0 n
  rw [hlen, addIf_true_zero] at hrun
  exact hrun

/-- The body section ends with the body's checksum in `rsum` and its length in `tcount`. -/
theorem body_run (hb : len.toNat ≤ c.bodyMax) :
    PulseRun (ReadsPulse c) (s.readAt 8 0 false 0 len cks 0) (sectionFrames (s.body.bytes len.toNat))
      (s.readAt 8 (8 * len.toNat) false (checksumOf (s.body.bytes len.toNat)) len cks len) := by
  have hlt := len.isLt
  have hrun := (sendsFrames_body (s := s) (cks := cks) hb).run (by rw [Memory.bytes_length]; omega) 0 0
  rw [Memory.bytes_length, addIf_true_zero, addIf_true_zero, BitVec.ofNat_toNat, BitVec.setWidth_eq]
    at hrun
  exact hrun

/-- R101: the complete stream but for its stop pulse, from R.IDLE to the end of R.BODYCKS. -/
theorem readStream_run {h b : List Byte} (hc : c.WellFormed) (hh : h = s.header.bytes c.hdrBytes)
    (hlen : len = declaredLength c s.header) (hb : b = s.body.bytes len.toNat)
    (hmax : len.toNat ≤ c.bodyMax) :
    ∃ ps, readStream c h b = ps ++ [long] ∧
      PulseRun (ReadsPulse c) ((s.setRd ReadCursor.zero).setTcount n) ps
        (s.readAt 9 16 false (checksumOf b) len (checksumOf b) len) := by
  subst hlen hh hb
  refine ⟨_, rfl, ?_⟩
  simp only [List.append_assoc]
  refine .of_actsAs actsAs_preamble ?_ (by simp [checksumFrames_ne_nil])
  refine (bigPreamble_run hc.rpre_count).fallThrough (actsAs_header hc.rpre_count) ?_
    (by simp [checksumFrames_ne_nil])
  refine (header_run hc.hdr_count).fallThrough (actsAs_hdrCks hc.hdr_count) ?_
    (by simp [checksumFrames_ne_nil])
  refine (sendsFrames_hdrCks hc.cks_two).checksum_run.fallThrough (actsAs_bodyPre hc.cks_two) ?_
    (by simp [checksumFrames_ne_nil])
  refine (bodyPreamble_run hc.rbpre_count).fallThrough (actsAs_body hc.rbpre_count) ?_
    (by simp [checksumFrames_ne_nil])
  exact (body_run hmax).fallThrough actsAs_bodyCks (sendsFrames_bodyCks hc.cks_two).checksum_run
    (checksumFrames_ne_nil _)

end Sys2Proof.Machine
end

section
/-!
READ_BIT calls (40_interface_ops.md R131): a pulse takes three calls, the stop pulse two, and a complete
read is the run of its stream (30_encoding.md R92, R101).
-/
namespace Sys2Proof.Machine

variable {c : Config} {s t u a b : State} {bs bs' ps : List Bit} {p v : Bit} {k l : Nat}

theorem readCalls_succ (h : readBit c s = .next t) (hv : t.rdData = some v)
    (hr : readCalls c k t = some (bs, u)) : readCalls c (k + 1) s = some (v :: bs, u) := by
  simp only [readCalls, h, hv, hr]

theorem readCalls_append (h : readCalls c k s = some (bs, t)) (h' : readCalls c l t = some (bs', u)) :
    readCalls c (k + l) s = some (bs ++ bs', u) := by
  induction k generalizing s bs with
  | zero => cases h; rwa [Nat.zero_add]
  | succ k ih =>
    rw [readCalls] at h
    split at h
    · rename_i w hw
      split at h
      · rename_i hv hr
        cases h
        rw [Nat.succ_add]
        exact readCalls_succ hw hv (ih hr)
      · cases h
    · cases h
    · cases h

/-- READ_BIT is neither stopped nor held off (40_interface_ops.md R131, items 1 and 2). -/
structure Readable (a : State) : Prop where
  motor   : a.motor = true
  heldOff : readHeldOff a = false

theorem Readable.phased (h : Readable a) (ph : Phase) (v : Bit) : Readable (a.phased ph v) :=
  ⟨h.motor, h.heldOff⟩

theorem Readable.readBit_lead (h : Readable a) (hp : a.rd.rphase = .lead) :
    readBit c a = .next (a.phased .data true) := by
  rw [readBit, if_neg (by simp [h.motor]), if_neg (by simp [h.heldOff]), hp]
  rfl

theorem Readable.readBit_data (h : Readable a) (hp : a.rd.rphase = .data) :
    readBit c a = readAdvance c (a.setRd { a.rd with rphase := .trail }) := by
  rw [readBit, if_neg (by simp [h.motor]), if_neg (by simp [h.heldOff]), hp]

theorem Readable.readBit_trail (h : Readable a) (hp : a.rd.rphase = .trail) :
    readBit c a = .next (a.phased .lead false) := by
  rw [readBit, if_neg (by simp [h.motor]), if_neg (by simp [h.heldOff]), hp]
  rfl

/-- The first call of a pulse does not see the level the last call returned. -/
theorem Readable.readCalls_phased (h : Readable a) (hp : a.rd.rphase = .lead) (hk : 0 < k) :
    readCalls c k a = readCalls c k (a.phased .lead false) := by
  obtain ⟨k, rfl⟩ : ∃ l, k = l + 1 := ⟨k - 1, by omega⟩
  rw [readCalls, readCalls, h.readBit_lead hp, (h.phased .lead false).readBit_lead rfl]
  rfl

theorem ReadsPulse.readable (h : ReadsPulse c a p b) (ha : Readable a) : Readable b :=
  ⟨h.motor.trans ha.motor, h.heldOff.trans ha.heldOff⟩

/-- R92: the three calls of one pulse. -/
theorem ReadsPulse.calls (h : ReadsPulse c a p b) (ha : Readable a) :
    readCalls c 3 (a.phased .lead false) = some (pulseFrame p, b.phased .lead false) := by
  have hb := (h.readable ha).phased .trail p
  refine readCalls_succ ((ha.phased _ _).readBit_lead rfl) rfl ?_
  refine readCalls_succ (((ha.phased .data true).readBit_data rfl).trans h.advance) rfl ?_
  exact readCalls_succ (hb.readBit_trail rfl) rfl rfl

/-- R92: three calls a pulse. -/
theorem PulseRun.calls (h : PulseRun (ReadsPulse c) a ps b) (ha : Readable a) :
    readCalls c (3 * ps.length) (a.phased .lead false) =
      some (ps.flatMap pulseFrame, b.phased .lead false) ∧ Readable b := by
  induction h with
  | nil => exact ⟨rfl, ha⟩
  | cons hstep _ ih =>
    obtain ⟨hcalls, hd⟩ := ih (hstep.readable ha)
    rw [List.length_cons, Nat.mul_succ, Nat.add_comm]
    exact ⟨readCalls_append (hstep.calls ha) hcalls, hd⟩

/-- The two calls of the stop pulse: its trailing low is never delivered (41_read_fsm.md R179). -/
theorem readCalls_stop (ha : Readable a) (h : readAdvance c (a.phased .trail true) = .next (rStop t)) :
    readCalls c 2 (a.phased .lead false) = some ([true, long], rStop t) := by
  refine readCalls_succ ((ha.phased _ _).readBit_lead rfl) rfl ?_
  exact readCalls_succ (((ha.phased .data true).readBit_data rfl).trans h) rfl rfl

/-- The levels of a stream that ends in the stop pulse (30_encoding.md R92). -/
theorem dropLast_flatMap_pulseFrame (ps : List Bit) :
    ((ps ++ [long]).flatMap pulseFrame).dropLast = ps.flatMap pulseFrame ++ [true, long] := by
  rw [List.flatMap_append, List.dropLast_append_of_ne_nil (by simp [pulseFrame])]
  rfl

/-- R101, in every configuration: a complete read from an idle cursor. -/
theorem completeRead {h b : List Byte} {len : Half} (hc : c.WellFormed)
    (hh : h = s.header.bytes c.hdrBytes) (hlen : len = declaredLength c s.header)
    (hb : b = s.body.bytes len.toNat) (hmax : len.toNat ≤ c.bodyMax) (hs : Readable s)
    (hrd : s.rd = ReadCursor.zero) :
    readCalls c (3 * (readStream c h b).length - 1) s =
      some (readLevels c h b, rStop (s.setTcount len)) := by
  have hstart : (s.setRd ReadCursor.zero).setTcount s.tcount = s := by rw [← hrd]; rfl
  obtain ⟨ps, hstream, hrun⟩ := readStream_run (n := s.tcount) hc hh hlen hb hmax
  rw [hstart] at hrun
  obtain ⟨hcalls, hend⟩ := hrun.calls hs
  have hcount : 3 * (ps ++ [long]).length - 1 = 3 * ps.length + 2 := by
    rw [List.length_append, List.length_singleton]; omega
  rw [readLevels, hstream, dropLast_flatMap_pulseFrame, hcount,
    hs.readCalls_phased (by rw [hrd]; rfl) (by omega)]
  exact readCalls_append hcalls (readCalls_stop hend (readAdvance_stop hc.cks_two))

/-- Settles O50: the complete read at the defaults, whose stream has 1552 + 9n pulses. -/
theorem completeReadPlaysTheStream : Obligations.CompleteReadPlaysTheStream := by
  intro s h b hh hb hn hmax hm hheld hrd
  have hdecl : (declaredLength Config.machine s.header).toNat = b.length := by
    rw [declaredLength, littleEndian_toNat, hn, hh, Memory.bytes_getD (by decide),
      Memory.bytes_getD (by decide)]
    rfl
  have hlen : (readStream Config.machine h b).length = 1552 + 9 * b.length := by
    rw [readStream_length b (by rw [hh, Memory.bytes_length]; rfl), machine_readPulses]
  rw [← hlen, completeRead (s := s) (h := h) (b := b) Config.machine_wellFormed hh rfl (by rwa [hdecl])
    (by rwa [hdecl]) ⟨hm, (readHeldOff_eq_false s).2 hheld⟩ hrd]
  rw [← hdecl, BitVec.ofNat_toNat, BitVec.setWidth_eq]
  rfl

end Sys2Proof.Machine
end

section
/-!
One complete write as a run of pulses (42_write_fsm.md R200 to R209): each section of the stream from its
first to its last pulse, and the fall-through to the next.
-/
namespace Sys2Proof.Machine

/-- The state at a falling edge: the line low, the clock at `now`, the rising edge at `t0`. -/
def State.clocked (a : State) (t0 now : Time) : State :=
  (a.setWr { a.wr with wline := false, wt0 := t0 }).atTime now

/-- The pulse `p` leads from `a` to `b` whatever its two clock values; both gates are kept. -/
structure WritesPulse (c : Config) (a : State) (p : Bit) (b : State) : Prop where
  pulse : ∀ t0 now, writePulse c p (a.clocked t0 now) = .next (b.clocked t0 now)
  motor : b.motor = a.motor := by rfl
  sense : b.sense = a.sense := by rfl

/-- The base state `s` inside a write: the state code, `wcnt`, `wsync`, `wsum`, `wblen`, `wbyte` and
`wcks`. -/
def State.writeAt (s : State) (code : Code) (m : Nat) (y : Bit) (sum len : Half) (byte : Byte)
    (cks : Half) : State :=
  s.setWr ⟨code, BitVec.ofNat 32 m, y, sum, len, byte, cks, false, 0⟩

variable {c : Config} {s a a' : State} {code : Code} {m j k : Nat} {y p : Bit} {sum len cks : Half}
  {byte v : Byte} {bytes : List Byte} {isbody : Bool} {t0 now : Time}

theorem actsAs_of_writePulse
    (h : ∀ p t0 now, writePulse c p (a.clocked t0 now) = writePulse c p (a'.clocked t0 now))
    (hm : a'.motor = a.motor) (hs : a'.sense = a.sense) : ActsAs (WritesPulse c) a a' :=
  fun p _ hp => ⟨fun t0 now => (h p t0 now).trans (hp.pulse t0 now), hp.motor.trans hm,
    hp.sense.trans hs⟩

theorem writeAt_wcnt (hm : m < 2 ^ 32) :
    ((s.writeAt code m y sum len byte cks).clocked t0 now).wr.wcnt.toNat = m :=
  Nat.mod_eq_of_lt hm

theorem writeAt_wblen : ((s.writeAt code m y sum len byte cks).clocked t0 now).wr.wblen = len := rfl

/-- A register of `n` bits with the first `k` bits of `v` shifted in. -/
def shiftedIn {n : Nat} (w v : BitVec n) (k : Nat) : BitVec n := (w <<< k) ||| (v >>> (n - k))

theorem shiftedIn_zero {n : Nat} (w v : BitVec n) : shiftedIn w v 0 = w := by
  simp [shiftedIn, BitVec.ushiftRight_eq_zero]

theorem shiftedIn_all {n : Nat} (w v : BitVec n) : shiftedIn w v n = v := by
  simp [shiftedIn]

/-- One more bit, the most significant first (10_state.md R40, R41). -/
theorem shiftIn_shiftedIn {n k : Nat} (w v : BitVec n) (hk : k < n) :
    shiftIn (shiftedIn w v k) (v.getLsbD (n - 1 - k)) = shiftedIn w v (k + 1) := by
  apply BitVec.eq_of_getLsbD_eq
  intro i hi
  cases i with
  | zero =>
    have hbit : n - (k + 1) = n - 1 - k := by omega
    have hlt : n - 1 - k < n := by omega
    simp [shiftIn, shiftedIn, hi, hbit, hlt]
  | succ i =>
    have hbit : n - (k + 1) + (i + 1) = n - k + i := by omega
    simp [shiftIn, shiftedIn, hi, hbit]

/-- The store of a completed byte: in the header, or in the body with `tcount` advanced (42_write_fsm.md
R204, R207). -/
def State.store (s : State) (isbody : Bool) (i : Nat) (v : Byte) : State :=
  if isbody then (s.setBody (s.body.write i v)).setTcount (s.tcount + 1)
  else s.setHeader (s.header.write i v)

/-- The stores of a whole section. -/
def State.storeBlock (s : State) (isbody : Bool) (bytes : List Byte) : State :=
  if isbody then
    (s.setBody (s.body.writeBlock 0 bytes)).setTcount (s.tcount + BitVec.ofNat 16 bytes.length)
  else s.setHeader (s.header.writeBlock 0 bytes)

theorem State.storeBlock_nil (s : State) (isbody : Bool) : s.storeBlock isbody [] = s := by
  cases isbody
  · rfl
  · change (s.setBody s.body).setTcount (s.tcount + 0#16) = s
    rw [BitVec.add_zero]
    rfl

theorem Memory.writeBlock_concat (mem : Memory) (base : Nat) (bs : List Byte) (b : Byte) :
    mem.writeBlock base (bs ++ [b]) = (mem.writeBlock base bs).write (base + bs.length) b := by
  induction bs generalizing mem base with
  | nil => rfl
  | cons v vs ih =>
    rw [List.cons_append, Memory.writeBlock, ih, Memory.writeBlock, List.length_cons]
    congr 1
    omega

theorem State.store_storeBlock (s : State) (isbody : Bool) (bytes : List Byte) (hj : j < bytes.length) :
    (s.storeBlock isbody (bytes.take j)).store isbody j bytes[j] =
      s.storeBlock isbody (bytes.take (j + 1)) := by
  have hlen : (bytes.take j).length = j := by rw [List.length_take]; omega
  rw [List.take_succ_eq_append_getElem hj]
  cases isbody
  · simp only [State.storeBlock, Memory.writeBlock_concat, hlen, Nat.zero_add]
    rfl
  · simp only [State.storeBlock, Memory.writeBlock_concat, hlen, Nat.zero_add, List.length_append,
      List.length_singleton, BitVec.ofNat_add, ← BitVec.add_assoc]
    rfl

/-- A pulse of W.HEADER or W.BODY before the section's end (42_write_fsm.md R204, R207). -/
def wDataPulse (isbody : Bool) (p : Bit) (s : State) : State :=
  match wSkipSync s with
  | some t => t
  | none =>
    if byteComplete (s.wr.wcnt + 1) then
      (s.setWr { wDataBit p s.wr with wsync := false }).store isbody ((s.wr.wcnt + 1).toNat / 8 - 1)
        (shiftIn s.wr.wbyte p)
    else s.setWr (wDataBit p s.wr)

/-- In the section of state `code` a pulse is one of the byte frames of `size` bytes. -/
def TakesFrames (c : Config) (code : Code) (len cks : Half) (size : Nat) (isbody : Bool) : Prop :=
  ∀ ⦃s : State⦄ ⦃m : Nat⦄ ⦃y : Bit⦄ ⦃sum : Half⦄ ⦃byte : Byte⦄ ⦃p : Bit⦄ ⦃t0 now : Time⦄,
    m < 8 * size →
    writePulse c p ((s.writeAt code m y sum len byte cks).clocked t0 now) =
      .next (wDataPulse isbody p ((s.writeAt code m y sum len byte cks).clocked t0 now))

/-- The state before data bit `k` of byte `j`, which is `v`; for `k` = 8 the byte boundary after it. -/
def State.writeBitAt (s : State) (code : Code) (len cks : Half) (isbody : Bool) (v : Byte)
    (sum : Half) (byte : Byte) (j k : Nat) : State :=
  (if k < 8 then s else s.store isbody j v).writeAt code (8 * j + k) (decide (k < 8))
    (sum + BitVec.ofNat 16 (onesBefore v k)) len (shiftedIn byte v k) cks

theorem TakesFrames.sync {size : Nat} (h : TakesFrames c code len cks size isbody)
    (hlen : 8 * size < 2 ^ 32) (hj : j < size) :
    WritesPulse c (s.writeAt code (8 * j) false sum len byte cks) p
      (s.writeBitAt code len cks isbody v sum byte j 0) where
  pulse t0 now := by
    rw [h (by omega), wDataPulse,
      wSkipSync_sync ⟨by rw [writeAt_wcnt (by omega)]; omega, rfl⟩]
    simp only [State.writeBitAt, onesBefore_zero, BitVec.add_zero, shiftedIn_zero]
    rfl

/-- A data bit before the eighth. -/
theorem wDataPulse_bit (hdata : ¬ (s.wr.wcnt.toNat % 8 = 0 ∧ s.wr.wsync = false))
    (h8 : byteComplete (s.wr.wcnt + 1) = false) : wDataPulse isbody p s = s.setWr (wDataBit p s.wr) := by
  rw [wDataPulse, wSkipSync_data hdata]
  exact if_neg (by rw [h8]; decide)

/-- The eighth data bit. -/
theorem wDataPulse_store (hdata : ¬ (s.wr.wcnt.toNat % 8 = 0 ∧ s.wr.wsync = false))
    (h8 : byteComplete (s.wr.wcnt + 1) = true) : wDataPulse isbody p s =
      (s.setWr { wDataBit p s.wr with wsync := false }).store isbody ((s.wr.wcnt + 1).toNat / 8 - 1)
        (shiftIn s.wr.wbyte p) := by
  rw [wDataPulse, wSkipSync_data hdata]
  exact if_pos h8

/-- The cursor after a data bit of Header or Body. -/
theorem wDataBit_writeBitAt (hk : k < 8) :
    wDataBit (byteBit v k) ((s.writeBitAt code len cks isbody v sum byte j k).clocked t0 now).wr =
      ⟨code, BitVec.ofNat 32 (8 * j + (k + 1)), true, sum + BitVec.ofNat 16 (onesBefore v (k + 1)), len,
        shiftedIn byte v (k + 1), cks, false, t0⟩ := by
  rw [← countOne_onesBefore, ← shiftIn_shiftedIn byte v hk, ← Nat.add_assoc, ← Count.ofNat_succ]
  simp only [State.writeBitAt, hk, decide_true]
  rfl

theorem writeBitAt_wcnt_succ :
    ((s.writeBitAt code len cks isbody v sum byte j k).clocked t0 now).wr.wcnt + 1 =
      BitVec.ofNat 32 (8 * j + k + 1) :=
  Count.ofNat_succ _

/-- Before a data bit the sync pulse has been taken. -/
theorem writeBitAt_data (hk : k < 8) :
    ¬ (((s.writeBitAt code len cks isbody v sum byte j k).clocked t0 now).wr.wcnt.toNat % 8 = 0 ∧
      ((s.writeBitAt code len cks isbody v sum byte j k).clocked t0 now).wr.wsync = false) := by
  have hsync : decide (k < 8) ≠ false := by simp [hk]
  exact fun h => hsync h.2

theorem wDataPulse_writeBitAt_bit (hk : k < 7) :
    wDataPulse isbody (byteBit v k) ((s.writeBitAt code len cks isbody v sum byte j k).clocked t0 now) =
      (s.writeBitAt code len cks isbody v sum byte j (k + 1)).clocked t0 now := by
  have hk8 : k < 8 := by omega
  have hk1 : k + 1 < 8 := by omega
  have h7 : k ≠ 7 := by omega
  rw [wDataPulse_bit (writeBitAt_data hk8)
    (by rw [writeBitAt_wcnt_succ, byteComplete_ofNat j hk8, decide_eq_false h7]), wDataBit_writeBitAt hk8]
  simp only [State.writeBitAt, hk8, hk1, if_true, decide_true]
  rfl

/-- The eighth data bit completes the byte `v` and stores it at index `j`. -/
theorem wDataPulse_writeBitAt_store (hj : 8 * j + 8 < 2 ^ 32) :
    wDataPulse isbody (byteBit v 7) ((s.writeBitAt code len cks isbody v sum byte j 7).clocked t0 now) =
      (s.writeBitAt code len cks isbody v sum byte j 8).clocked t0 now := by
  have hbyte : shiftIn (shiftedIn byte v 7) (byteBit v 7) = v :=
    (shiftIn_shiftedIn byte v (by decide)).trans (shiftedIn_all byte v)
  have hindex : (BitVec.ofNat 32 (8 * j + 7 + 1)).toNat / 8 - 1 = j := by
    rw [BitVec.toNat_ofNat, Nat.mod_eq_of_lt hj]; omega
  rw [wDataPulse_store (writeBitAt_data (by decide))
    (by rw [writeBitAt_wcnt_succ, byteComplete_ofNat j (by decide)]; rfl), wDataBit_writeBitAt (by decide),
    writeBitAt_wcnt_succ, hindex]
  have hwbyte : shiftIn ((s.writeBitAt code len cks isbody v sum byte j 7).clocked t0 now).wr.wbyte
    (byteBit v 7) = v := hbyte
  rw [hwbyte]
  cases isbody <;> rfl

/-- A store keeps both gates. -/
theorem writeBitAt_gates :
    (s.writeBitAt code len cks isbody v sum byte j k).motor = s.motor ∧
      (s.writeBitAt code len cks isbody v sum byte j k).sense = s.sense := by
  rw [State.writeBitAt]
  split
  · exact ⟨rfl, rfl⟩
  · cases isbody <;> exact ⟨rfl, rfl⟩

theorem TakesFrames.bit {size : Nat} (h : TakesFrames c code len cks size isbody)
    (hlen : 8 * size < 2 ^ 32) (hj : j < size) (hk : k < 8) :
    WritesPulse c (s.writeBitAt code len cks isbody v sum byte j k) (byteBit v k)
      (s.writeBitAt code len cks isbody v sum byte j (k + 1)) where
  pulse t0 now := by
    refine (h (by omega)).trans (congrArg Host.Outcome.next ?_)
    obtain h7 | rfl : k < 7 ∨ k = 7 := by omega
    · exact wDataPulse_writeBitAt_bit h7
    · exact wDataPulse_writeBitAt_store (by omega)
  motor := writeBitAt_gates.1.trans writeBitAt_gates.1.symm
  sense := writeBitAt_gates.2.trans writeBitAt_gates.2.symm

/-- A whole section: every byte stored, the running checksum advanced. -/
theorem TakesFrames.run (h : TakesFrames c code len cks bytes.length isbody)
    (hlen : 8 * bytes.length < 2 ^ 32) :
    PulseRun (WritesPulse c) (s.writeAt code 0 false 0 len byte cks) (sectionFrames bytes)
      ((s.storeBlock isbody bytes).writeAt code (8 * bytes.length) false (checksumOf bytes) len
        (bytes.getLastD byte) cks) := by
  have hrun := PulseRun.of_sectionFrames (R := WritesPulse c) (bytes := bytes) (fun j =>
    (s.storeBlock isbody (bytes.take j)).writeAt code (8 * j) false (checksumOf (bytes.take j)) len
      ((bytes.take j).getLastD byte) cks) fun j hj => by
    have hframe := PulseRun.of_byteFrame
      ((s.storeBlock isbody (bytes.take j)).writeBitAt code len cks isbody bytes[j]
        (checksumOf (bytes.take j)) ((bytes.take j).getLastD byte) j) (h.sync hlen hj)
      fun k hk => h.bit hlen hj hk
    have hsum : checksumOf (bytes.take j) + BitVec.ofNat 16 (onesBefore bytes[j] 8) =
        checksumOf (bytes.take (j + 1)) := by
      rw [checksumOf, checksumOf, onesOf_take_succ _ hj, BitVec.ofNat_add, onesBefore_eight]
    have hlast : (bytes.take (j + 1)).getLastD byte = bytes[j] := by
      rw [List.take_succ_eq_append_getElem hj, List.getLastD_concat]
    rw [State.writeBitAt, if_neg (by decide), State.store_storeBlock _ _ _ hj, hsum, shiftedIn_all]
      at hframe
    rw [hlast]
    exact hframe
  simpa [State.storeBlock_nil, checksumOf, onesOf] using hrun

/-- A checksum pulse that is a data bit and shows no mismatch (42_write_fsm.md R205, R208). -/
theorem wChecksumPulse_bit {lc : LogCode}
    (hok : checksumMismatch c (BitVec.ofNat 32 (m + 1)) (shiftIn cks p) sum = false) :
    wChecksumPulse c lc p ((s.writeAt code m true sum len byte cks).clocked t0 now) =
      (s.writeAt code (m + 1) (if byteComplete (BitVec.ofNat 32 (m + 1)) then false else true) sum len byte
        (shiftIn cks p)).clocked t0 now := by
  have hdata : ((s.writeAt code m true sum len byte cks).clocked t0 now).wr.wsync ≠ false := nofun
  rw [wChecksumPulse, wSkipSync_data fun h => hdata h.2]
  rw [← Count.ofNat_succ] at hok
  refine (if_neg (by rw [Bool.not_eq_true]; exact hok)).trans ?_
  rw [← Count.ofNat_succ, State.writeAt, State.writeAt, ← Count.ofNat_succ m]
  rfl

/-- In the section of state `code` a pulse is a checksum pulse that logs `lc` on a mismatch. -/
def TakesChecksum (c : Config) (code : Code) (lc : LogCode) : Prop :=
  ∀ ⦃s : State⦄ ⦃m : Nat⦄ ⦃y : Bit⦄ ⦃sum len cks : Half⦄ ⦃byte : Byte⦄ ⦃p : Bit⦄
    ⦃t0 now : Time⦄, m < 16 →
    writePulse c p ((s.writeAt code m y sum len byte cks).clocked t0 now) =
      .next (wChecksumPulse c lc p ((s.writeAt code m y sum len byte cks).clocked t0 now))

/-- The bits of a checksum in the order its two bytes are sent (30_encoding.md R97). -/
theorem byteBit_checksum (v : Half) {j k : Nat} (hj : j < [highByte v, lowByte v].length) (hk : k < 8) :
    byteBit [highByte v, lowByte v][j] k = v.getLsbD (16 - 1 - (8 * j + k)) := by
  have hk7 : 7 - k < 8 := by omega
  obtain rfl | rfl : j = 0 ∨ j = 1 := by simp at hj; omega
  · have hbit : 15 - k = 8 + (7 - k) := by omega
    simp [byteBit, highByte, hk7, hbit]
  · have hbit : 16 - 1 - (8 * 1 + k) = 7 - k := by omega
    simp [byteBit, lowByte, hk7, hbit]

/-- The right checksum matches at the sixteenth bit, and nothing is compared before. -/
theorem checksumMismatch_shiftedIn (hc : c.cksBits = 16) (w v : Half) {m : Nat} (hm : m < 16) :
    checksumMismatch c (BitVec.ofNat 32 (m + 1)) (shiftedIn w v (m + 1)) v = false := by
  by_cases hlast : m = 15
  · subst hlast
    rw [shiftedIn_all, checksumMismatch]
    simp
  · have hcount : (BitVec.ofNat 32 (m + 1)).toNat ≠ c.cksBits := by
      rw [BitVec.toNat_ofNat, hc]; omega
    rw [checksumMismatch, decide_eq_false hcount, Bool.false_and]

/-- The state before bit `k` of checksum byte `j`, for `k` = 8 the byte boundary after it. -/
def State.writeChecksumAt (s : State) (code : Code) (sum len : Half) (byte : Byte) (cks : Half)
    (j k : Nat) : State :=
  s.writeAt code (8 * j + k) (decide (k < 8)) sum len byte (shiftedIn cks sum (8 * j + k))

theorem TakesChecksum.sync {lc : LogCode} (h : TakesChecksum c code lc) (hj : j < 2) :
    WritesPulse c (s.writeAt code (8 * j) false sum len byte (shiftedIn cks sum (8 * j))) p
      (s.writeChecksumAt code sum len byte cks j 0) where
  pulse t0 now := by
    rw [h (by omega), wChecksumPulse,
      wSkipSync_sync ⟨by rw [writeAt_wcnt (by omega)]; omega, rfl⟩]
    rfl

theorem TakesChecksum.bit {lc : LogCode} (h : TakesChecksum c code lc) (hc : c.cksBits = 16)
    (hj : j < [highByte sum, lowByte sum].length) (hk : k < 8) :
    WritesPulse c (s.writeChecksumAt code sum len byte cks j k) (byteBit [highByte sum, lowByte sum][j] k)
      (s.writeChecksumAt code sum len byte cks j (k + 1)) where
  pulse t0 now := by
    have hm : 8 * j + k < 16 := by have hj2 : j < 2 := hj; omega
    have hcks := shiftIn_shiftedIn cks sum hm
    rw [← byteBit_checksum sum hj hk] at hcks
    have hok := checksumMismatch_shiftedIn hc cks sum hm
    rw [← hcks] at hok
    have hsync : (if byteComplete (BitVec.ofNat 32 (8 * j + k + 1)) = true then false else true) =
        decide (k + 1 < 8) := by rw [← sync_after_bit j hk, decide_eq_true hk]
    rw [State.writeChecksumAt, decide_eq_true hk, h hm, wChecksumPulse_bit hok, hcks,
      hsync]
    rfl

/-- A checksum section that carries the running checksum (42_write_fsm.md R205, R208). -/
theorem TakesChecksum.run {lc : LogCode} (h : TakesChecksum c code lc) (hc : c.cksBits = 16) :
    PulseRun (WritesPulse c) (s.writeAt code 0 false sum len byte cks) (checksumFrames sum)
      (s.writeAt code 16 false sum len byte sum) := by
  have hrun := PulseRun.of_sectionFrames (R := WritesPulse c) (bytes := [highByte sum, lowByte sum])
    (fun j => s.writeAt code (8 * j) false sum len byte (shiftedIn cks sum (8 * j))) fun j hj =>
      .of_byteFrame (s.writeChecksumAt code sum len byte cks j) (h.sync hj) fun k hk => h.bit hc hj hk
  rw [checksumFrames_eq_sectionFrames]
  simpa [shiftedIn_zero, shiftedIn_all] using hrun

end Sys2Proof.Machine
end

section
/-!
The sections of a write by their handlers, and the fall-through at the end of each (42_write_fsm.md R202
to R210).
-/
namespace Sys2Proof.Machine

variable {c : Config} {s : State} {code : Code} {m : Nat} {p : Bit} {sum len cks : Half} {byte : Byte}
  {t0 now : Time} {skip : List Bit}

/-- A pulse of the preamble or of a skip counts. -/
theorem writeAt_count :
    ((s.writeAt code m false sum len byte cks).clocked t0 now).setWr
      { ((s.writeAt code m false sum len byte cks).clocked t0 now).wr with
        wcnt := ((s.writeAt code m false sum len byte cks).clocked t0 now).wr.wcnt + 1 } =
      (s.writeAt code (m + 1) false sum len byte cks).clocked t0 now := by
  rw [State.writeAt, State.writeAt, ← Count.ofNat_succ]
  rfl

/-- W.PREAMBLE takes the preamble the writer expects (42_write_fsm.md R203). -/
theorem writePreamble_run (hc : c.wPreLen < 2 ^ 32) :
    PulseRun (WritesPulse c) (s.writeAt 1 0 false sum len byte cks) (writePreamble c)
      (s.writeAt 1 c.wPreLen false sum len byte cks) := by
  refine .of_range (fun m => s.writeAt 1 m false sum len byte cks) fun m hm =>
    ⟨fun t0 now => ?_, rfl, rfl⟩
  change writeFromPreamble c _ _ = _
  rw [writeFromPreamble, wPreamble, writeAt_wcnt (hm.trans hc), if_pos hm, if_neg (by simp)]
  exact congrArg Host.Outcome.next writeAt_count

/-- W.SKIP4 takes its pulses whatever their symbols (42_write_fsm.md R206). -/
theorem skip4_run (hc : c.wSkip4 < 2 ^ 32) (hs : skip.length = c.wSkip4) :
    PulseRun (WritesPulse c) (s.writeAt 4 0 false sum len byte cks) skip
      (s.writeAt 4 c.wSkip4 false sum len byte cks) := by
  rw [← hs] at hc ⊢
  refine .of_positions (fun m => s.writeAt 4 m false sum len byte cks) fun m hm =>
    ⟨fun t0 now => ?_, rfl, rfl⟩
  change writeFromSkip4 c _ _ = _
  rw [writeFromSkip4, wSkip4, writeAt_wcnt (hm.trans hc), if_pos (hs ▸ hm)]
  exact congrArg Host.Outcome.next writeAt_count

/-- W.SKIP10 takes its pulses whatever their symbols (42_write_fsm.md R209). -/
theorem skip10_run (hc : c.wSkip10 len < 2 ^ 32) (hs : skip.length = c.wSkip10 len) :
    PulseRun (WritesPulse c) (s.writeAt 10 0 false sum len byte cks) skip
      (s.writeAt 10 (c.wSkip10 len) false sum len byte cks) := by
  rw [← hs] at hc ⊢
  refine .of_positions (fun m => s.writeAt 10 m false sum len byte cks) fun m hm =>
    ⟨fun t0 now => ?_, rfl, rfl⟩
  change writeFromSkip10 c _ _ = _
  rw [writeFromSkip10, wSkip10, writeAt_wcnt (hm.trans hc), writeAt_wblen, if_pos (hs ▸ hm)]
  exact congrArg Host.Outcome.next writeAt_count

/-- A pulse of W.HEADER before the header's end (42_write_fsm.md R204). -/
theorem wHeader_eq_done (h : s.wr.wcnt.toNat < c.hdrBits) :
    wHeader c p s = .done (wDataPulse false p s) := by
  rw [wHeader, if_pos h, wDataPulse]
  cases wSkipSync s with
  | some t => rfl
  | none => exact (apply_ite Turn.done _ _ _).symm

/-- A pulse of W.BODY before the body's end, where the body fits its buffer (42_write_fsm.md R207). -/
theorem wBody_eq_done (h : s.wr.wcnt.toNat < 8 * s.wr.wblen.toNat) (hmax : s.wr.wblen.toNat ≤ c.bodyMax) :
    wBody c p s = .done (wDataPulse true p s) := by
  have hle : (s.wr.wcnt + 1).toNat ≤ s.wr.wcnt.toNat + 1 := by
    rw [BitVec.toNat_add]; exact Nat.mod_le _ _
  have hi : ¬ c.bodyMax ≤ (wDataBit p s.wr).wcnt.toNat / 8 - 1 := by
    change ¬ c.bodyMax ≤ (s.wr.wcnt + 1).toNat / 8 - 1
    omega
  rw [wBody, if_pos h, wDataPulse]
  cases wSkipSync s with
  | some t => rfl
  | none =>
    dsimp only
    rw [if_neg hi]
    exact (apply_ite Turn.done _ _ _).symm

theorem takesFrames_header (hc : c.hdrBits < 2 ^ 32) :
    TakesFrames c 2 len cks c.hdrBytes false := by
  intro s m y sum byte p t0 now hm
  have hlt : m < c.hdrBits := hm
  change writeFromHeader c _ _ = _
  rw [writeFromHeader, wHeader_eq_done (by rwa [writeAt_wcnt (hlt.trans hc)])]
  rfl

/-- W.HEADER rebuilds the header (42_write_fsm.md R204). -/
theorem writeHeader_run {h : List Byte} (hc : c.hdrBits < 2 ^ 32) (hh : h.length = c.hdrBytes) :
    PulseRun (WritesPulse c) (s.writeAt 2 0 false 0 len byte cks) (sectionFrames h)
      ((s.storeBlock false h).writeAt 2 c.hdrBits false (checksumOf h) len (h.getLastD byte) cks) := by
  have hbits : 8 * h.length = c.hdrBits := by rw [hh]; rfl
  have hrun := (hh ▸ takesFrames_header hc : TakesFrames c 2 len cks h.length false).run (s := s)
    (byte := byte) (by rwa [hbits])
  rwa [hbits] at hrun

theorem takesFrames_body (hmax : len.toNat ≤ c.bodyMax) :
    TakesFrames c 8 len cks len.toNat true := by
  intro s m y sum byte p t0 now hm
  have hlen := len.isLt
  change writeFromBody c _ _ = _
  rw [writeFromBody, wBody_eq_done (by rwa [writeAt_wcnt (by omega)]) hmax]
  rfl

/-- W.BODY rebuilds the body (42_write_fsm.md R207). -/
theorem writeBody_run {b : List Byte} (hb : b.length = len.toNat) (hmax : len.toNat ≤ c.bodyMax) :
    PulseRun (WritesPulse c) (s.writeAt 8 0 false 0 len byte cks) (sectionFrames b)
      ((s.storeBlock true b).writeAt 8 (8 * len.toNat) false (checksumOf b) len (b.getLastD byte) cks) := by
  have hlen := len.isLt
  have hrun := (hb ▸ takesFrames_body hmax : TakesFrames c 8 len cks b.length true).run (s := s)
    (byte := byte) (by omega)
  rwa [hb] at hrun

theorem takesChecksum_hdrCks (hc : c.cksBits = 16) : TakesChecksum c 3 .wHdrCksMismatch := by
  intro s m y sum len cks byte p t0 now hm
  change writeFromHdrCks c _ _ = _
  rw [writeFromHdrCks, wHdrCks, writeAt_wcnt (by omega), if_pos (by rwa [hc])]
  rfl

theorem takesChecksum_bodyCks (hc : c.cksBits = 16) : TakesChecksum c 9 .wBodyCksMismatch := by
  intro s m y sum len cks byte p t0 now hm
  change writeFromBodyCks c _ _ = _
  rw [writeFromBodyCks, wBodyCks, writeAt_wcnt (by omega), if_pos (by rwa [hc])]
  rfl

/-- W.IDLE clears the scratch and acts as the preamble (42_write_fsm.md R202). -/
theorem actsAs_writePreamble : ActsAs (WritesPulse c) (s.setWr WriteCursor.zero)
    ((s.setTcount 0).writeAt 1 0 false 0 0 0 0) :=
  actsAs_of_writePulse (fun _ _ _ => rfl) rfl rfl

/-- The fall-through of W.PREAMBLE (42_write_fsm.md R203). -/
theorem actsAs_writeHeader (hc : c.wPreLen < 2 ^ 32) :
    ActsAs (WritesPulse c) (s.writeAt 1 c.wPreLen false sum len byte cks)
      (s.writeAt 2 0 false sum len 0 cks) := by
  refine actsAs_of_writePulse (fun p t0 now => ?_) rfl rfl
  change writeFromPreamble c _ _ = _
  rw [writeFromPreamble, wPreamble, writeAt_wcnt hc, if_neg (Nat.lt_irrefl _)]
  rfl

/-- The fall-through of W.HEADER (42_write_fsm.md R204). -/
theorem actsAs_writeHdrCks (hc : c.hdrBits < 2 ^ 32) :
    ActsAs (WritesPulse c) (s.writeAt 2 c.hdrBits false sum len byte cks)
      (s.writeAt 3 0 false sum len byte 0) := by
  refine actsAs_of_writePulse (fun p t0 now => ?_) rfl rfl
  change writeFromHeader c _ _ = _
  rw [writeFromHeader, wHeader, writeAt_wcnt hc, if_neg (Nat.lt_irrefl _)]
  rfl

/-- The fall-through of W.HDRCKS, which latches the declared length (42_write_fsm.md R205). -/
theorem actsAs_skip4 {n : Half} (hc : c.cksBits = 16) (hn : declaredLength c s.header = n) :
    ActsAs (WritesPulse c) (s.writeAt 3 16 false sum len byte cks)
      (s.writeAt 4 0 false 0 n byte cks) := by
  subst hn
  refine actsAs_of_writePulse (fun p t0 now => ?_) rfl rfl
  change writeFromHdrCks c _ _ = _
  rw [writeFromHdrCks, wHdrCks, writeAt_wcnt (by decide), if_neg (by rw [hc]; decide)]
  rfl

/-- The fall-through of W.SKIP4 (42_write_fsm.md R206). -/
theorem actsAs_writeBody (hc : c.wSkip4 < 2 ^ 32) :
    ActsAs (WritesPulse c) (s.writeAt 4 c.wSkip4 false sum len byte cks)
      (s.writeAt 8 0 false sum len 0 cks) := by
  refine actsAs_of_writePulse (fun p t0 now => ?_) rfl rfl
  change writeFromSkip4 c _ _ = _
  rw [writeFromSkip4, wSkip4, writeAt_wcnt hc, if_neg (Nat.lt_irrefl _)]
  rfl

/-- The fall-through of W.BODY (42_write_fsm.md R207). -/
theorem actsAs_writeBodyCks :
    ActsAs (WritesPulse c) (s.writeAt 8 (8 * len.toNat) false sum len byte cks)
      (s.writeAt 9 0 false sum len byte 0) := by
  have hlen := len.isLt
  refine actsAs_of_writePulse (fun p t0 now => ?_) rfl rfl
  change writeFromBody c _ _ = _
  rw [writeFromBody, wBody, writeAt_wcnt (by omega), writeAt_wblen, if_neg (Nat.lt_irrefl _)]
  rfl

/-- The fall-through of W.BODYCKS (42_write_fsm.md R208). -/
theorem writePulse_bodyCks_end (hc : c.cksBits = 16) :
    writePulse c p ((s.writeAt 9 16 false sum len byte cks).clocked t0 now) =
      writePulse c p ((s.writeAt 10 0 false sum len byte cks).clocked t0 now) := by
  change writeFromBodyCks c _ _ = _
  rw [writeFromBodyCks, wBodyCks, writeAt_wcnt (by decide), if_neg (by rw [hc]; decide)]
  rfl

/-- What W.STOP leaves of a complete write (42_write_fsm.md R210). -/
def State.written (s : State) (c : Config) (len : Half) : State :=
  ((s.setWr { WriteCursor.zero with wblen := len }).persist c).resetAll

/-- The fall-through of W.SKIP10 to W.STOP, on the stop pulse (42_write_fsm.md R209, R210). -/
theorem writePulse_skip10_end (hc : c.wSkip10 len < 2 ^ 32) (hmax : len.toNat ≤ c.bodyMax) :
    writePulse c long ((s.writeAt 10 (c.wSkip10 len) false sum len byte cks).clocked t0 now) =
      .next ((s.written c len).atTime now) := by
  change writeFromSkip10 c _ _ = _
  rw [writeFromSkip10, wSkip10, writeAt_wcnt hc, writeAt_wblen, if_neg (Nat.lt_irrefl _)]
  exact writeFromStop_long hmax

/-- Skip(10), also where it takes no pulse, and the stop pulse after it. -/
theorem skip10_stop (hc : c.WellFormed) (hs : skip.length = c.wSkip10 len) (hmax : len.toNat ≤ c.bodyMax) :
    ∃ e, PulseRun (WritesPulse c) (s.writeAt 9 16 false sum len byte cks) skip e ∧
      ∀ t0 now, writePulse c long (e.clocked t0 now) = .next ((s.written c len).atTime now) := by
  have hlt := hc.skip10_count len
  by_cases hnil : skip = []
  · subst hnil
    have h0 : c.wSkip10 len = 0 := hs.symm
    refine ⟨_, .nil _, fun t0 now => ?_⟩
    rw [writePulse_bodyCks_end hc.cks_two]
    simpa only [h0] using
      writePulse_skip10_end (s := s) (sum := sum) (byte := byte) (cks := cks) (t0 := t0) (now := now) hlt hmax
  · have hacts : ActsAs (WritesPulse c) (s.writeAt 9 16 false sum len byte cks)
        (s.writeAt 10 0 false sum len byte cks) :=
      actsAs_of_writePulse (fun _ _ _ => writePulse_bodyCks_end hc.cks_two) rfl rfl
    exact ⟨_, (skip10_run hlt hs).of_actsAs hacts hnil, fun t0 now => writePulse_skip10_end hlt hmax⟩

/-- A byte of a block stored at the start of a buffer. -/
theorem Memory.read_writeBlock_zero {mem : Memory} {bs : List Byte} (hwf : mem.wf = true) {i : Nat}
    (hi : i < bs.length) : (mem.writeBlock 0 bs).read i = bs.getD i 0#8 := by
  have hin := Memory.read_writeBlock_inside hwf (base := 0) hi
  rwa [Nat.zero_add] at hin

/-- The length in a header buffer a whole header has been stored in (20_memory.md R65). -/
theorem declaredLength_writeBlock {mem : Memory} {h : List Byte} (hwf : mem.wf = true)
    (hlen : c.lenOff + 1 < h.length) : declaredLength c (mem.writeBlock 0 h) = imageLength c h := by
  rw [declaredLength, imageLength, Memory.read_writeBlock_zero hwf (by omega),
    Memory.read_writeBlock_zero hwf hlen]

/-- R102: the stream up to Skip(10), from W.IDLE to the end of W.BODYCKS. -/
theorem writeStream_run {h b : List Byte} {skip4 : List Bit} (hc : c.WellFormed)
    (hwf : s.header.wf = true) (hh : h.length = c.hdrBytes) (hb : b.length = (imageLength c h).toNat)
    (hmax : b.length ≤ c.bodyMax) (h4 : skip4.length = c.wSkip4) :
    ∃ byte, PulseRun (WritesPulse c) (s.setWr WriteCursor.zero)
      (writePreamble c ++ (sectionFrames h ++ (checksumFrames (checksumOf h) ++ (skip4
        ++ (sectionFrames b ++ checksumFrames (checksumOf b))))))
      ((((s.setTcount 0).storeBlock false h).storeBlock true b).writeAt 9 16 false (checksumOf b)
        (imageLength c h) byte (checksumOf b)) := by
  have hdecl : declaredLength c ((s.setTcount 0).storeBlock false h).header = imageLength c h :=
    declaredLength_writeBlock hwf (by rw [hh]; exact hc.len_inside)
  refine ⟨b.getLastD 0, ?_⟩
  refine .of_actsAs actsAs_writePreamble ?_ (by simp [checksumFrames_ne_nil])
  refine (writePreamble_run hc.wpre_count).fallThrough (actsAs_writeHeader hc.wpre_count) ?_
    (by simp [checksumFrames_ne_nil])
  refine (writeHeader_run hc.hdr_count hh).fallThrough (actsAs_writeHdrCks hc.hdr_count) ?_
    (by simp [checksumFrames_ne_nil])
  refine ((takesChecksum_hdrCks hc.cks_two).run hc.cks_two).fallThrough (actsAs_skip4 hc.cks_two hdecl) ?_
    (by simp [checksumFrames_ne_nil])
  refine (skip4_run hc.skip4_count h4).fallThrough (actsAs_writeBody hc.skip4_count) ?_
    (by simp [checksumFrames_ne_nil])
  exact (writeBody_run hb (hb ▸ hmax)).fallThrough actsAs_writeBodyCks
    ((takesChecksum_bodyCks hc.cks_two).run hc.cks_two) (checksumFrames_ne_nil _)

end Sys2Proof.Machine
end

section
/-!
Pulses on the write line (40_interface_ops.md R132, R133): a pulse is its classified interval given to
the write FSM, and a complete write is the run of its stream (30_encoding.md R102).
-/
namespace Sys2Proof.Machine

variable {c : Config} {s a b : State} {p : Bit} {ps qs : List Bit} {ts : List (Time × Time)}
  {t0 t1 x y : Time}

/-- WRITE_BIT 1 and WRITE_BIT 0 on a low line with both gates on (40_interface_ops.md R132). -/
theorem writeOnePulse_clocked (hg : writeGate a = true) :
    writeOnePulse c t1 t0 (a.clocked x y) = writePulse c (classify c (t0 - t1)) (a.clocked t1 t0) := by
  have hrise : writeBit c true ((a.clocked x y).atTime t1) =
      .next (((a.clocked t1 t1).setWr { (a.clocked t1 t1).wr with wline := true })) := by
    rw [writeBit, if_neg (by rw [Bool.not_eq_false]; exact hg)]
    rfl
  have hfall : writeBit c false (((a.clocked t1 t1).setWr
      { (a.clocked t1 t1).wr with wline := true }).atTime t0) =
      writePulse c (classify c (t0 - t1)) (a.clocked t1 t0) := by
    rw [writeBit, if_neg (by rw [Bool.not_eq_false]; exact hg)]
    rfl
  rw [writeOnePulse, hrise]
  exact hfall

theorem WritesPulse.gate (h : WritesPulse c a p b) : writeGate b = writeGate a := by
  rw [writeGate, writeGate, h.motor, h.sense]

/-- A run takes its pulses off the front of a list of timed pulses. -/
theorem PulseRun.writePulses (h : PulseRun (WritesPulse c) a ps b) (hg : writeGate a = true)
    (hts : pulseSymbols c ts = ps ++ qs) (x y : Time) :
    writeGate b = true ∧ ∃ ts' x' y', pulseSymbols c ts' = qs ∧
      writePulses c ts (a.clocked x y) = writePulses c ts' (b.clocked x' y') := by
  induction h generalizing ts x y with
  | nil => exact ⟨hg, ts, x, y, hts, rfl⟩
  | cons hstep _ ih =>
    cases ts with
    | nil => cases hts
    | cons pulse ts =>
      obtain ⟨t1, t0⟩ := pulse
      rw [pulseSymbols, List.map_cons, List.cons_append, List.cons.injEq] at hts
      obtain ⟨hp, hrest⟩ := hts
      obtain ⟨hgb, ts', x', y', hqs, hrun⟩ := ih (hstep.gate.trans hg) hrest t1 t0
      refine ⟨hgb, ts', x', y', hqs, ?_⟩
      rw [← hrun, Machine.writePulses, writeOnePulse_clocked hg, hp, hstep.pulse]

/-- The last pulse of a list. -/
theorem writePulses_single (hts : pulseSymbols c ts = [p]) (hg : writeGate a = true)
    (hp : ∀ t0 now, writePulse c p (a.clocked t0 now) = .next (b.atTime now)) (x y : Time) :
    ∃ now, writePulses c ts (a.clocked x y) = .next (b.atTime now) := by
  obtain ⟨⟨t1, t0⟩, rfl, hsym⟩ := List.map_eq_singleton_iff.1 hts
  refine ⟨t0, ?_⟩
  simp only [writePulses, writeOnePulse_clocked hg, hsym, hp]

/-- R102, in every configuration: a complete write from an idle cursor. -/
theorem completeWrite {h b : List Byte} {skip4 skip10 : List Bit} (hc : c.WellFormed)
    (hwf : s.header.wf = true) (hh : h.length = c.hdrBytes) (hb : b.length = (imageLength c h).toNat)
    (hmax : b.length ≤ c.bodyMax) (h4 : skip4.length = c.wSkip4)
    (h10 : skip10.length = c.wSkip10 (imageLength c h))
    (hts : pulseSymbols c ts = writeStream c h b skip4 skip10) (hg : writeGate s = true)
    (hwr : s.wr = WriteCursor.zero) :
    ∃ now, writePulses c ts s =
      .next (((((s.setTcount 0).storeBlock false h).storeBlock true b).written c (imageLength c h)).atTime
        now) := by
  have hstart : (s.setWr WriteCursor.zero).clocked 0 s.port.now = s := by
    cases s; cases hwr; rfl
  obtain ⟨byte, hrun⟩ := writeStream_run (s := s) hc hwf hh hb hmax h4
  obtain ⟨e, hskip, hstop⟩ := skip10_stop hc h10 (hb ▸ hmax)
  obtain ⟨hge, ts', x, y, hlast, heq⟩ := (hrun.append hskip).writePulses (qs := [long]) hg
    (by simpa only [writeStream, List.append_assoc] using hts) 0 s.port.now
  obtain ⟨now, hend⟩ := writePulses_single hlast hge hstop x y
  rw [hstart] at heq
  exact ⟨now, heq.trans hend⟩

/-- The first bytes of a buffer a whole block has been stored in. -/
theorem Memory.bytes_writeBlock {mem : Memory} (hwf : mem.wf = true) (bs : List Byte) :
    (mem.writeBlock 0 bs).bytes bs.length = bs := by
  refine List.ext_getElem (Memory.bytes_length _ _) fun i _ hi => ?_
  rw [Memory.getElem_bytes, Memory.read_writeBlock_zero hwf hi, List.getD_eq_getElem _ _ hi]

/-- Settles O51: the fields of the state a complete write leaves. -/
theorem writerAcceptsItsFormat : Obligations.WriterAcceptsItsFormat := by
  intro c s h b skip4 skip10 ts hc hh hb hmax h4 h10 hts hbuf hm hs hwr
  obtain ⟨now, hend⟩ := completeWrite hc hbuf.header_wf hh hb hmax h4 h10 hts
    (by rw [writeGate, hm, hs]; rfl) hwr
  have hheader : (s.header.writeBlock 0 h).bytes c.hdrBytes = h := by
    rw [← hh]; exact Memory.bytes_writeBlock hbuf.header_wf h
  have hbody : (s.body.writeBlock 0 b).bytes b.length = b := Memory.bytes_writeBlock hbuf.body_wf b
  refine ⟨_, hend, ?_, hheader, hbody, fun j hj => ?_, rfl, rfl, rfl, rfl, ?_⟩
  · change s.events ++ [Event.persist ((s.header.writeBlock 0 h).bytes c.hdrBytes)
      ((s.body.writeBlock 0 b).bytes (imageLength c h).toNat) (imageLength c h)] = _
    rw [← hb, hheader, hbody]
  · exact Memory.read_writeBlock_outside (by omega)
  · exact BitVec.zero_add _

end Sys2Proof.Machine
end

section
/-!
The operations at the block's boundary: READ_BIT and WRITE_BIT case by case (40_interface_ops.md R131,
R132), the classified pulse (R133), RESET (R136 to R138), the gates (R139, R141, R143) and PRELOAD (R140).
-/
namespace Sys2Proof.Machine

variable {c : Config} {s : State} {b : Bit}

/-- Item 1 of READ_BIT (40_interface_ops.md R131). -/
theorem readBit_motorOff (hm : s.motor = false) :
    readBit c s = .next ((s.setRd { s.rd with
      rphase := if s.rd.rstate ≠ 0 then .lead else s.rd.rphase }).answer true) := by
  rw [readBit, if_pos hm]
  by_cases hr : s.rd.rstate ≠ 0
  · rw [if_pos ((readInProgress_eq_true s).2 hr), if_pos hr]
  · rw [if_neg (mt (readInProgress_eq_true s).1 hr), if_neg hr]
    rfl

/-- Item 2 of READ_BIT (40_interface_ops.md R131). -/
theorem readBit_heldOff (hm : s.motor = true) (hh : readHeldOff s = true) :
    readBit c s = .next (s.answer true) := by
  rw [readBit, if_neg (by simp [hm]), if_pos hh]

/-- Settles O12: one lemma per item, and in item 3 one per phase. -/
theorem readBitFollowsItsThreeItems : Obligations.ReadBitFollowsItsThreeItems := by
  refine ⟨(decodeCommand_eq_readBit _).2 rfl, fun s => ⟨readBit_motorOff, fun hm hs hw => ?_,
    fun hm hheld => ?_⟩⟩
  · exact readBit_heldOff hm (by rw [readHeldOff, hs, (writeInProgress_eq_true s).2 hw]; rfl)
  · have hread : Readable s := ⟨hm, (readHeldOff_eq_false s).2 hheld⟩
    exact ⟨hread.readBit_lead, hread.readBit_trail,
      fun hp => exec_readBit_advancing ⟨hm, hread.heldOff, hp⟩⟩

/-- WRITE_BIT outside its gate (40_interface_ops.md R132). -/
theorem writeBit_gateOff (hg : writeGate s = false) : writeBit c b s = .next s := by
  rw [writeBit, if_pos hg]

/-- A rising edge (40_interface_ops.md R132). -/
theorem writeBit_rising (hg : writeGate s = true) (hl : s.wr.wline = false) :
    writeBit c true s = .next (s.setWr { s.wr with wline := true, wt0 := s.port.now }) := by
  rw [writeBit, if_neg (by simp [hg]), if_pos (by simp [risingEdge, hl])]

/-- A level the line already has is no edge, inside the gate or outside (40_interface_ops.md R132). -/
theorem writeBit_repeated (hl : b = s.wr.wline) : writeBit c b s = .next s := by
  have hrise : risingEdge b s = false := by simp [risingEdge, hl]
  have hfall : fallingEdge b s = false := by simp [fallingEdge, hl]
  simp only [writeBit, hrise, hfall, Bool.false_eq_true, if_false, ite_self]

/-- Settles O13: one lemma per case; the falling edge is `exec_writeBit_falling`. -/
theorem writeBitFollowsGateAndEdges : Obligations.WriteBitFollowsGateAndEdges := by
  refine fun b s => ⟨decodeCommand_eq_some_iff.2 ⟨rfl, by cases b <;> rfl⟩, fun hoff => ?_,
    fun hm hs => ⟨?_, writeBit_repeated, ?_⟩⟩
  · exact writeBit_gateOff (by obtain h | h := hoff <;> simp [writeGate, h])
  · rintro rfl hl
    exact writeBit_rising (by simp [writeGate, hm, hs]) hl
  · rintro rfl hl
    exact exec_writeBit_falling ⟨hm, hs, hl⟩

theorem imageConsistent_eq_true {h d : List Byte} :
    imageConsistent c ⟨h, d⟩ = true ↔ h.length = c.hdrBytes ∧ d.length = (imageLength c h).toNat := by
  simp [imageConsistent]

theorem imageFits_eq_true {h d : List Byte} : imageFits c ⟨h, d⟩ = true ↔ d.length ≤ c.bodyMax := by
  simp [imageFits]

/-- PRELOAD within its domain (40_interface_ops.md R140). -/
theorem preload_eq_next {h d : List Byte} (himg : s.port.image = ⟨h, d⟩)
    (hcons : imageConsistent c ⟨h, d⟩ = true) (hfits : imageFits c ⟨h, d⟩ = true) :
    preload c s = .next ((s.setHeader (s.header.writeBlock 0 h)).setBody (s.body.writeBlock 0 d)) := by
  simp only [preload, himg, hcons, hfits, Bool.true_eq_false, if_false]

/-- PRELOAD of operands that do not agree (log entry 13). -/
theorem preload_malformed (hcons : imageConsistent c s.port.image = false) :
    preload c s = .refused .preloadMalformed :=
  if_pos hcons

/-- PRELOAD of a body longer than the buffer (93_implementation_defined.md U1). -/
theorem preload_tooLong (hcons : imageConsistent c s.port.image = true)
    (hfits : imageFits c s.port.image = false) : preload c s = .refused .preloadTooLong := by
  simp only [preload, hcons, hfits, Bool.true_eq_false, if_false, if_true]

/-- R65: the declared length at the defaults. -/
theorem imageLength_machine (h : List Byte) :
    (imageLength Config.machine h).toNat = (h.getD 18 0).toNat + 256 * (h.getD 19 0).toNat :=
  littleEndian_toNat _ _

/-- Settles O17: both block writes start at index 0, and a block write keeps what lies outside it. -/
theorem preloadReplacesTheBuffers : Obligations.PreloadReplacesTheBuffers := by
  intro s h d hbuf himg hh hd hmax
  have hcons : imageConsistent Config.machine ⟨h, d⟩ = true :=
    imageConsistent_eq_true.2 ⟨hh, hd.trans (imageLength_machine h).symm⟩
  refine ⟨_, preload_eq_next himg hcons (imageFits_eq_true.2 hmax), fun i hi => ?_, fun i hi => ?_,
    fun j hj => ?_, fun j hj => ?_, rfl⟩
  · exact Memory.read_writeBlock_zero hbuf.header_wf (by omega)
  · exact Memory.read_writeBlock_outside (by omega)
  · exact Memory.read_writeBlock_zero hbuf.body_wf hj
  · exact Memory.read_writeBlock_outside (by omega)

/-- Settles O18: each refusal is one of PRELOAD's two checks failing. -/
theorem preloadIsRefusedOutsideItsDomain : Obligations.PreloadIsRefusedOutsideItsDomain := by
  intro c s h d himg
  refine ⟨fun hbad => preload_malformed ?_, fun hh hd hlong => preload_tooLong ?_ ?_⟩
  · rw [himg, Bool.eq_false_iff]
    exact mt imageConsistent_eq_true.1 hbad
  · rw [himg]
    exact imageConsistent_eq_true.2 ⟨hh, hd⟩
  · rw [himg, Bool.eq_false_iff]
    exact mt imageFits_eq_true.1 (Nat.not_le.2 hlong)

/-- Settles O14: the classifier compares the 64-bit difference with the threshold. -/
theorem pulseIsShortBelowTheThreshold : Obligations.PulseIsShortBelowTheThreshold := by
  intro s
  have hstamp := s.wr.wt0.isLt
  have hdiff : (s.port.now - s.wr.wt0).toNat = (s.port.now.toNat + 2 ^ 64 - s.wr.wt0.toNat) % 2 ^ 64 := by
    rw [BitVec.toNat_sub]
    congr 1
    omega
  rw [pulseInHand, classify_eq_short, hdiff, Config.machine_wThreshUs]

/-- What RESET clears stays cleared (40_interface_ops.md R138). -/
@[simp] theorem State.resetAll_resetAll (s : State) : s.resetAll.resetAll = s.resetAll := rfl

/-- Settles O15: RESET is `ResetAll()`. -/
theorem resetClearsCursorsAndGates : Obligations.ResetClearsCursorsAndGates :=
  fun s => ⟨s.resetAll, exec_reset s, by rw [exec_reset, State.resetAll_resetAll], rfl⟩

/-- Settles O16: each gate operation is one `State.setGates`. -/
theorem gateOperationsWriteTheGatesOnly : Obligations.GateOperationsWriteTheGatesOnly :=
  fun b s => ⟨decodeCommand_eq_some_iff.2 ⟨rfl, by cases b <;> rfl⟩,
    decodeCommand_eq_some_iff.2 ⟨rfl, by cases b <;> rfl⟩, decodeCommand_eq_some_iff.2 ⟨rfl, rfl⟩,
    exec_setMotor s b, exec_setSense s b, exec_senseToggle s⟩

end Sys2Proof.Machine
end

section
/-!
The read FSM, handler by handler (41_read_fsm.md): each handler's turn followed by the rest of the
dispatch, one equation per case, in every configuration (R172 to R178); at the defaults the rule itself.
The byte frame (R171), R.STOP (R179) and the codes that are no read state (R180) stand beside them, and
the idle law of READ_BIT (R183) ends the section.
-/
namespace Sys2Proof.Machine

variable {c : Config} {s t : State} {v : Bit}

/-- Settles O19: the sync pulse is `rByteFrame_sync`, the data bit `rByteFrame_bit` with its two
nested conditions joined. -/
theorem byteFrameSendsSyncThenBits : Obligations.ByteFrameSendsSyncThenBits := by
  refine fun byte counted isbody s => ⟨rByteFrame_sync, fun hdata => ?_⟩
  rw [rByteFrame_bit hdata]
  simp only [ite_and, Bool.and_eq_true, byteComplete_eq_true]
  rfl

/-- Settles O20: the fall-through is R.IDLE's only way on, and it ends in the preamble's first pulse. -/
theorem readIdleStartsThePreamble : Obligations.ReadIdleStartsThePreamble :=
  fun s => ⟨rfl, readFromIdle_eq Config.machine s⟩

/-- A pulse of the preamble (41_read_fsm.md R173). -/
theorem readFromPreamble_pulse (h : s.rd.rcnt.toNat < c.rPreLen) :
    readFromPreamble c s =
      .next ((s.setRd { s.rd with rcnt := s.rd.rcnt + 1 }).answer (prePulse c s.rd.rcnt.toNat)) := by
  rw [readFromPreamble, rPreamble, if_pos h, Turn.andThen_done]

/-- The end of the preamble (41_read_fsm.md R173). -/
theorem readFromPreamble_end (h : c.rPreLen ≤ s.rd.rcnt.toNat) :
    readFromPreamble c s =
      readFromHeader c (s.setRd { s.rd with rstate := 2, rcnt := 0, rsync := false }) := by
  rw [readFromPreamble, rPreamble, if_neg (Nat.not_lt.2 h), Turn.andThen_again]

/-- Inside the preamble, where its LONG pulses stand at the defaults (30_encoding.md R95). -/
theorem prePulse_machine_eq_decide {k : Nat} (hk : k < 201) :
    prePulse Config.machine k = decide ((120 ≤ k ∧ k < 160) ∨ k = 200) := by
  rw [prePulse_machine, Bool.eq_iff_iff, decide_eq_true_iff]
  split_ifs <;> simp <;> omega

/-- Settles O21: 201 is the preamble's length at the defaults. -/
theorem readPreambleSendsItsPulses : Obligations.ReadPreambleSendsItsPulses := by
  refine fun s => ⟨fun h => ?_, readFromPreamble_end (c := Config.machine)⟩
  rw [← prePulse_machine_eq_decide h]
  exact readFromPreamble_pulse h

/-- A pulse of the header (41_read_fsm.md R174). -/
theorem readFromHeader_pulse (h : s.rd.rcnt.toNat < c.hdrBits) :
    readFromHeader c s =
      .next (rByteFrame (s.header.read (s.rd.rcnt.toNat / 8)) true false s) := by
  rw [readFromHeader, rHeader, if_pos h, Turn.andThen_done]

/-- The end of the header (41_read_fsm.md R174). -/
theorem readFromHeader_end (h : c.hdrBits ≤ s.rd.rcnt.toNat) :
    readFromHeader c s = readFromHdrCks c
      (s.setRd { s.rd with rstate := 3, rcnt := 0, rsync := false, rcks := s.rd.rsum }) := by
  rw [readFromHeader, rHeader, if_neg (Nat.not_lt.2 h), Turn.andThen_again]

/-- Settles O22: 1024 is the header's number of data bits at the defaults. -/
theorem readHeaderSendsTheHeader : Obligations.ReadHeaderSendsTheHeader :=
  fun _ => ⟨readFromHeader_pulse (c := Config.machine), readFromHeader_end (c := Config.machine)⟩

/-- A pulse of the header checksum (41_read_fsm.md R175). -/
theorem readFromHdrCks_pulse (h : s.rd.rcnt.toNat < c.cksBits) :
    readFromHdrCks c s =
      .next (rByteFrame (checksumByte s.rd.rcks s.rd.rcnt.toNat) false false s) := by
  rw [readFromHdrCks, rHdrCks, if_pos h, Turn.andThen_done]

/-- The end of the header checksum, where the declared length is latched (41_read_fsm.md R175). -/
theorem readFromHdrCks_end (h : c.cksBits ≤ s.rd.rcnt.toNat) :
    readFromHdrCks c s = readFromBodyPre c (s.setRd { s.rd with
      rstate := 7, rcnt := 0, rsync := false, rsum := 0, rblen := declaredLength c s.header }) := by
  rw [readFromHdrCks, rHdrCks, if_neg (Nat.not_lt.2 h), Turn.andThen_again]

/-- R65: the length the header buffer declares at the defaults. -/
theorem declaredLength_machine (header : Memory) : declaredLength Config.machine header =
    BitVec.ofNat 16 ((header.read 18).toNat + 256 * (header.read 19).toNat) :=
  littleEndian_eq _ _

/-- Settles O23: the latched length is the number its two bytes write. -/
theorem readHeaderChecksumSendsItsBytes : Obligations.ReadHeaderChecksumSendsItsBytes := by
  refine fun s => ⟨readFromHdrCks_pulse (c := Config.machine), fun h => ?_⟩
  rw [← declaredLength_machine]
  exact readFromHdrCks_end h

/-- A pulse of the body preamble (41_read_fsm.md R176). -/
theorem readFromBodyPre_pulse (h : s.rd.rcnt.toNat < c.rBpreLen) :
    readFromBodyPre c s =
      .next ((s.setRd { s.rd with rcnt := s.rd.rcnt + 1 }).answer (bprePulse c s.rd.rcnt.toNat)) := by
  rw [readFromBodyPre, rBodyPre, if_pos h, Turn.andThen_done]

/-- The end of the body preamble (41_read_fsm.md R176). -/
theorem readFromBodyPre_end (h : c.rBpreLen ≤ s.rd.rcnt.toNat) :
    readFromBodyPre c s =
      readFromBody c (s.setRd { s.rd with rstate := 8, rcnt := 0, rsync := false }) := by
  rw [readFromBodyPre, rBodyPre, if_neg (Nat.not_lt.2 h), Turn.andThen_again]

/-- Inside the body preamble, where its LONG pulses stand at the defaults (30_encoding.md R98). -/
theorem bprePulse_machine_eq_decide {k : Nat} (hk : k < 162) :
    bprePulse Config.machine k = decide (k = 0 ∨ (121 ≤ k ∧ k < 141) ∨ k = 161) := by
  rw [bprePulse_machine, Bool.eq_iff_iff, decide_eq_true_iff]
  split_ifs <;> simp <;> omega

/-- Settles O24: 162 is the body preamble's length at the defaults. -/
theorem readBodyPreambleSendsItsPulses : Obligations.ReadBodyPreambleSendsItsPulses := by
  refine fun s => ⟨fun h => ?_, readFromBodyPre_end (c := Config.machine)⟩
  rw [← bprePulse_machine_eq_decide h]
  exact readFromBodyPre_pulse h

/-- A pulse of the body, its byte inside the buffer (41_read_fsm.md R177). -/
theorem readFromBody_pulse (h : s.rd.rcnt.toNat < 8 * s.rd.rblen.toNat)
    (hin : s.rd.rcnt.toNat / 8 < c.bodyMax) :
    readFromBody c s =
      .next (rByteFrame (s.body.read (s.rd.rcnt.toNat / 8)) true true s) := by
  rw [readFromBody, rBody, if_pos h, if_neg (Nat.not_le.2 hin), Turn.andThen_done]

/-- A pulse of the body whose byte the buffer does not hold (20_memory.md R68). -/
theorem readFromBody_outside (h : s.rd.rcnt.toNat < 8 * s.rd.rblen.toNat)
    (hout : c.bodyMax ≤ s.rd.rcnt.toNat / 8) : readFromBody c s = .fault .bodyIndex := by
  rw [readFromBody, rBody, if_pos h, if_pos hout, Turn.andThen_fault]

/-- The end of the body (41_read_fsm.md R177). -/
theorem readFromBody_end (h : 8 * s.rd.rblen.toNat ≤ s.rd.rcnt.toNat) :
    readFromBody c s = readFromBodyCks c
      (s.setRd { s.rd with rstate := 9, rcnt := 0, rsync := false, rcks := s.rd.rsum }) := by
  rw [readFromBody, rBody, if_neg (Nat.not_lt.2 h), Turn.andThen_again]

/-- Settles O25: R.BODY's three cases. -/
theorem readBodySendsTheBody : Obligations.ReadBodySendsTheBody :=
  fun _ => ⟨readFromBody_pulse, fun _ => readFromBody_outside, readFromBody_end⟩

/-- A pulse of the body checksum (41_read_fsm.md R178). -/
theorem readFromBodyCks_pulse (h : s.rd.rcnt.toNat < c.cksBits) :
    readFromBodyCks c s =
      .next (rByteFrame (checksumByte s.rd.rcks s.rd.rcnt.toNat) false false s) := by
  rw [readFromBodyCks, rBodyCks, if_pos h, Turn.andThen_done]

/-- The end of the body checksum (41_read_fsm.md R178). -/
theorem readFromBodyCks_end (h : c.cksBits ≤ s.rd.rcnt.toNat) :
    readFromBodyCks c s =
      readFromStop (s.setRd { s.rd with rstate := 13, rcnt := 0, rsync := false }) := by
  rw [readFromBodyCks, rBodyCks, if_neg (Nat.not_lt.2 h), Turn.andThen_again]

/-- Settles O26: 16 is the checksum's number of data bits. -/
theorem readBodyChecksumSendsItsBytes : Obligations.ReadBodyChecksumSendsItsBytes :=
  fun _ => ⟨readFromBodyCks_pulse (c := Config.machine), readFromBodyCks_end (c := Config.machine)⟩

/-- Settles O27: R.STOP is `ResetAll()` and a LONG pulse. -/
theorem readStopResetsTheBlock : Obligations.ReadStopResetsTheBlock := exec_rStop

/-- Settles O28: the eight codes share one handler. -/
theorem unknownReadStateLogsAndResets : Obligations.UnknownReadStateLogsAndResets :=
  fun s _ => exec_rUnknown s

/-- Calls from a state that READ_BIT keeps, its own level included. -/
theorem readCalls_of_fixed (ht : readBit c t = .next t) (hv : t.rdData = some v) (n : Nat) :
    readCalls c n t = some (List.replicate n v, t) := by
  induction n with
  | zero => rfl
  | succ n ih => exact readCalls_succ ht hv ih

/-- Calls whose first reaches a state that READ_BIT keeps. -/
theorem readCalls_settle (h : readBit c s = .next t) (ht : readBit c t = .next t)
    (hv : t.rdData = some v) (n : Nat) :
    readCalls c (n + 1) s = some (List.replicate (n + 1) v, t) :=
  readCalls_succ h hv (readCalls_of_fixed ht hv n)

/-- The answer to a READ_BIT with the motor off is a state that further such calls keep: the phase is
cleared once (41_read_fsm.md R183). -/
theorem readCalls_motorOff (hm : s.motor = false) (n : Nat) :
    readCalls c (n + 1) s = some (List.replicate (n + 1) true, (s.setRd { s.rd with
      rphase := if s.rd.rstate ≠ 0 then .lead else s.rd.rphase }).answer true) := by
  refine readCalls_settle (readBit_motorOff hm) ?_ rfl n
  rw [readBit_motorOff]
  · simp only [State.setRd, State.answer]
    split_ifs <;> rfl
  · exact hm

/-- While a write in progress holds the reader off, every call keeps the registers
(41_read_fsm.md R183). -/
theorem readCalls_heldOff (hm : s.motor = true) (hh : readHeldOff s = true) (n : Nat) :
    readCalls c (n + 1) s = some (List.replicate (n + 1) true, s.answer true) :=
  readCalls_settle (readBit_heldOff hm hh) (readBit_heldOff hm hh) rfl n

/-- Settles O45: no call changes nothing; otherwise the first call reaches a state the rest keep. -/
theorem idleReadsReturnOneAndChangeNothing : Obligations.IdleReadsReturnOneAndChangeNothing := by
  intro n s
  cases n with
  | zero => exact ⟨fun _ => ⟨s, rfl, s.rdData, by simp⟩, fun _ _ _ => ⟨s, rfl, s.rdData, rfl⟩⟩
  | succ n =>
    refine ⟨fun hm => ⟨_, readCalls_motorOff hm n, some true, ?_⟩, fun hm hs hw =>
      ⟨_, readCalls_heldOff hm ?_ n, some true, rfl⟩⟩
    · simp [State.setRd, State.answer]
    · rw [readHeldOff, hs, (writeInProgress_eq_true s).2 hw]
      rfl

end Sys2Proof.Machine
end

section
/-!
The write FSM, handler by handler (42_write_fsm.md): each handler's turn followed by the rest of the
dispatch, one equation per case, in every configuration (R202 to R210); at the defaults the rule itself.
The codes that are no write state (R211) stand at the end.
-/
namespace Sys2Proof.Machine

variable {c : Config} {s : State} {p : Bit} {code : LogCode}

/-- Settles O29: the fall-through is W.IDLE's only way on, and it ends in the preamble's first position. -/
theorem writeIdleStartsThePreamble : Obligations.WriteIdleStartsThePreamble := by
  refine fun s => ⟨rfl, ?_⟩
  rw [exec_wIdle, writeFromIdle_eq, zextBit_eq]
  rfl

/-- A pulse of the preamble (42_write_fsm.md R203). -/
theorem writeFromPreamble_pulse (h : s.wr.wcnt.toNat < c.wPreLen) :
    writeFromPreamble c p s = .next (if p = wprePulse c s.wr.wcnt.toNat then
      s.setWr { s.wr with wcnt := s.wr.wcnt + 1 }
    else s.violateWrite .wPreambleMismatch s.wr.wcnt (zextBit p)) := by
  rw [writeFromPreamble, wPreamble, if_pos h]
  by_cases hp : p = wprePulse c s.wr.wcnt.toNat
  · rw [if_pos hp, if_neg (not_not.2 hp), Turn.andThen_done]
  · rw [if_neg hp, if_pos hp, Turn.andThen_done]

/-- The end of the preamble (42_write_fsm.md R203). -/
theorem writeFromPreamble_end (h : c.wPreLen ≤ s.wr.wcnt.toNat) :
    writeFromPreamble c p s = writeFromHeader c p
      (s.setWr { s.wr with wstate := 2, wcnt := 0, wsync := false, wbyte := 0 }) := by
  rw [writeFromPreamble, wPreamble, if_neg (Nat.not_lt.2 h), Turn.andThen_again]

/-- Settles O30: a pulse is counted or logged, and the preamble's end is W.HEADER. -/
theorem writePreambleChecksEveryPulse : Obligations.WritePreambleChecksEveryPulse := by
  rintro s p rfl
  refine ⟨fun h => ?_, writeFromPreamble_end⟩
  rw [exec_wPreamble, writeFromPreamble_pulse h, zextBit_eq]
  rfl

/-- The sync pulse of a byte frame of Header or Body (42_write_fsm.md R201). -/
theorem wDataPulse_sync {isbody : Bool} (h8 : s.wr.wcnt.toNat % 8 = 0) (hy : s.wr.wsync = false) :
    wDataPulse isbody p s = s.setWr { s.wr with wsync := true } := by
  rw [wDataPulse, wSkipSync_sync ⟨h8, hy⟩]

/-- A data bit of Header or Body that completes no byte (42_write_fsm.md R204, R207). -/
theorem wDataPulse_eq_setWr {isbody : Bool} (hdata : ¬ (s.wr.wcnt.toNat % 8 = 0 ∧ s.wr.wsync = false))
    (h8 : (s.wr.wcnt.toNat + 1) % 8 ≠ 0) : wDataPulse isbody p s = s.setWr (wDataBit p s.wr) :=
  wDataPulse_bit hdata (by rwa [← Bool.not_eq_true, byteComplete_eq_true, Count.succ_mod_eight])

/-- The cursor after a data bit of Header or Body, its shift written out (42_write_fsm.md R204, R207). -/
theorem wDataBit_eq (p : Bit) (w : WriteCursor) : wDataBit p w = { w with
    wbyte := (w.wbyte <<< 1) ||| (if p = true then 1#8 else 0#8)
    wsum := if p = true then w.wsum + 1 else w.wsum
    wcnt := w.wcnt + 1 } := by
  rw [← shiftIn_byte]; rfl

/-- A pulse of the header (42_write_fsm.md R204). -/
theorem writeFromHeader_pulse (h : s.wr.wcnt.toNat < c.hdrBits) :
    writeFromHeader c p s = .next (wDataPulse false p s) := by
  rw [writeFromHeader, wHeader_eq_done h, Turn.andThen_done]

/-- The end of the header (42_write_fsm.md R204). -/
theorem writeFromHeader_end (h : c.hdrBits ≤ s.wr.wcnt.toNat) :
    writeFromHeader c p s = writeFromHdrCks c p
      (s.setWr { s.wr with wstate := 3, wcnt := 0, wsync := false, wcks := 0 }) := by
  rw [writeFromHeader, wHeader, if_neg (Nat.not_lt.2 h), Turn.andThen_again]

/-- Before its eighth data bit a byte's sync pulse has been taken, and the bit completes the byte
(42_write_fsm.md R204, R207). -/
theorem eighthBit_isData_and_completes (h : (s.wr.wcnt.toNat + 1) % 8 = 0) :
    ¬ (s.wr.wcnt.toNat % 8 = 0 ∧ s.wr.wsync = false) ∧ byteComplete (s.wr.wcnt + 1) = true :=
  ⟨by omega, by rwa [byteComplete_eq_true, Count.succ_mod_eight]⟩

/-- Settles O31: the pulses of a byte frame, and the header's end; 1024 is its number of data bits. -/
theorem writeHeaderRebuildsTheHeader : Obligations.WriteHeaderRebuildsTheHeader := by
  rintro s p rfl
  refine ⟨fun h h8 hy => ?_, fun h hdata h8 => ?_, fun h h8 => ?_, writeFromHeader_end (c := Config.machine)⟩
  · rw [exec_wHeader, writeFromHeader_pulse h, wDataPulse_sync h8 hy]
    rfl
  · rw [exec_wHeader, writeFromHeader_pulse h, wDataPulse_eq_setWr hdata h8, wDataBit_eq]
    rfl
  · obtain ⟨hdata, hlast⟩ := eighthBit_isData_and_completes h8
    rw [exec_wHeader, writeFromHeader_store h hdata hlast, wDataBit_eq, shiftIn_byte,
      Count.toNat_succ (by omega)]
    rfl

/-- The sync pulse of a checksum byte (42_write_fsm.md R201). -/
theorem wChecksumPulse_sync (h8 : s.wr.wcnt.toNat % 8 = 0) (hy : s.wr.wsync = false) :
    wChecksumPulse c code p s = s.setWr { s.wr with wsync := true } := by
  rw [wChecksumPulse, wSkipSync_sync ⟨h8, hy⟩]

/-- The comparison falls on the sixteenth bit (42_write_fsm.md R205, R208). -/
theorem checksumMismatch_eq_true {n : Count} {received computed : Half} (hc : c.cksBits = 16)
    (hn : n.toNat < 16) :
    checksumMismatch c (n + 1) received computed = true ↔ n = 15 ∧ received ≠ computed := by
  have hlast : n = 15 ↔ n.toNat = 15 := BitVec.toNat_inj.symm
  rw [checksumMismatch, Bool.and_eq_true, decide_eq_true_iff, decide_eq_true_iff,
    Count.toNat_succ (by omega), hc, hlast]
  simp

/-- A data bit of a checksum: the difference at the sixteenth is logged and changes nothing else
(42_write_fsm.md R205, R208). -/
theorem wChecksumPulse_data {cks : Half} (hcks : shiftIn s.wr.wcks p = cks) (hc : c.cksBits = 16)
    (hn : s.wr.wcnt.toNat < 16) (hdata : ¬ (s.wr.wcnt.toNat % 8 = 0 ∧ s.wr.wsync = false)) :
    wChecksumPulse c code p s = { s with
      wr := { s.wr with
        wcks := cks
        wcnt := s.wr.wcnt + 1
        wsync := if (s.wr.wcnt.toNat + 1) % 8 = 0 then false else s.wr.wsync }
      events := s.events ++ (if s.wr.wcnt = 15 ∧ cks ≠ s.wr.wsum then
        [.log code (s.wr.wsum.setWidth 32) (cks.setWidth 32)] else []) } := by
  simp only [wChecksumPulse, wSkipSync_data hdata, hcks, checksumMismatch_eq_true hc hn,
    byteComplete_eq_true, Count.succ_mod_eight]
  by_cases hmis : s.wr.wcnt = 15 ∧ cks ≠ s.wr.wsum
  · rw [if_pos hmis, if_pos hmis]
    rfl
  · rw [if_neg hmis, if_neg hmis, List.append_nil]
    rfl

/-- A pulse of the header checksum (42_write_fsm.md R205). -/
theorem writeFromHdrCks_pulse (h : s.wr.wcnt.toNat < c.cksBits) :
    writeFromHdrCks c p s = .next (wChecksumPulse c .wHdrCksMismatch p s) := by
  rw [writeFromHdrCks, wHdrCks, if_pos h, Turn.andThen_done]

/-- The end of the header checksum, where the declared length is latched (42_write_fsm.md R205). -/
theorem writeFromHdrCks_end (h : c.cksBits ≤ s.wr.wcnt.toNat) :
    writeFromHdrCks c p s = writeFromSkip4 c p (s.setWr { s.wr with
      wstate := 4, wcnt := 0, wsync := false, wsum := 0, wblen := declaredLength c s.header }) := by
  rw [writeFromHdrCks, wHdrCks, if_neg (Nat.not_lt.2 h), Turn.andThen_again]

/-- A pulse of the body checksum (42_write_fsm.md R208). -/
theorem writeFromBodyCks_pulse (h : s.wr.wcnt.toNat < c.cksBits) :
    writeFromBodyCks c p s = .next (wChecksumPulse c .wBodyCksMismatch p s) := by
  rw [writeFromBodyCks, wBodyCks, if_pos h, Turn.andThen_done]

/-- The end of the body checksum (42_write_fsm.md R208). -/
theorem writeFromBodyCks_end (h : c.cksBits ≤ s.wr.wcnt.toNat) :
    writeFromBodyCks c p s =
      writeFromSkip10 c p (s.setWr { s.wr with wstate := 10, wcnt := 0, wsync := false }) := by
  rw [writeFromBodyCks, wBodyCks, if_neg (Nat.not_lt.2 h), Turn.andThen_again]

/-- Settles O32: both handlers take the same checksum pulses, each with its own event, and each goes on
to its own skip. -/
theorem writeChecksumsAreComparedAtTheSixteenthBit :
    Obligations.WriteChecksumsAreComparedAtTheSixteenthBit := by
  rintro s p cks rfl hcks
  rw [← shiftIn_half] at hcks
  refine ⟨fun h h8 hy => ?_, ?_, fun h => ⟨?_, writeFromBodyCks_end (c := Config.machine) h⟩⟩
  · rw [exec_wHdrCks, exec_wBodyCks, writeFromHdrCks_pulse h, writeFromBodyCks_pulse h,
      wChecksumPulse_sync h8 hy, wChecksumPulse_sync h8 hy]
    exact ⟨rfl, rfl⟩
  · rintro h hdata w rfl
    rw [exec_wHdrCks, exec_wBodyCks, writeFromHdrCks_pulse h, writeFromBodyCks_pulse h,
      wChecksumPulse_data hcks.symm rfl h hdata, wChecksumPulse_data hcks.symm rfl h hdata]
    exact ⟨rfl, rfl⟩
  · rw [← declaredLength_machine]
    exact writeFromHdrCks_end (c := Config.machine) h

/-- A pulse of Skip(4) (42_write_fsm.md R206). -/
theorem writeFromSkip4_pulse (h : s.wr.wcnt.toNat < c.wSkip4) :
    writeFromSkip4 c p s = .next (s.setWr { s.wr with wcnt := s.wr.wcnt + 1 }) := by
  rw [writeFromSkip4, wSkip4, if_pos h, Turn.andThen_done]

/-- The end of Skip(4) (42_write_fsm.md R206). -/
theorem writeFromSkip4_end (h : c.wSkip4 ≤ s.wr.wcnt.toNat) :
    writeFromSkip4 c p s = writeFromBody c p
      (s.setWr { s.wr with wstate := 8, wcnt := 0, wsync := false, wbyte := 0 }) := by
  rw [writeFromSkip4, wSkip4, if_neg (Nat.not_lt.2 h), Turn.andThen_again]

/-- Settles O33: past the count W.BODY takes the pulse as a sync pulse, of the body or, where that is
empty, of its checksum. -/
theorem writeSkip4CountsThenEntersTheBody : Obligations.WriteSkip4CountsThenEntersTheBody := by
  refine fun s => ⟨?_, writeFromSkip4_end (c := Config.machine)⟩
  rw [exec_wSkip4]
  by_cases hlt : s.wr.wcnt.toNat < Config.machine.wSkip4
  · rw [if_pos hlt, writeFromSkip4_pulse hlt]
    rfl
  · rw [if_neg hlt, writeFromSkip4_end (Nat.le_of_not_lt hlt)]
    by_cases hn : s.wr.wblen = 0
    · rw [if_neg (not_not.2 hn)]
      exact writeFromBody_fresh_empty (by simp) (by exact hn)
    · rw [if_pos hn]
      exact writeFromBody_fresh hn rfl rfl

/-- The sync pulse of a body byte (42_write_fsm.md R207). -/
theorem writeFromBody_sync (h : s.wr.wcnt.toNat < 8 * s.wr.wblen.toNat) (h8 : s.wr.wcnt.toNat % 8 = 0)
    (hy : s.wr.wsync = false) :
    writeFromBody c p s = .next (s.setWr { s.wr with wsync := true }) := by
  rw [writeFromBody, wBody, if_pos h, wSkipSync_sync ⟨h8, hy⟩, Turn.andThen_done]

/-- A data bit of the body that completes no byte (42_write_fsm.md R207). -/
theorem writeFromBody_bit (h : s.wr.wcnt.toNat < 8 * s.wr.wblen.toNat)
    (hdata : ¬ (s.wr.wcnt.toNat % 8 = 0 ∧ s.wr.wsync = false))
    (h8 : (s.wr.wcnt.toNat + 1) % 8 ≠ 0) :
    writeFromBody c p s = .next (s.setWr (wDataBit p s.wr)) := by
  have hlast : ¬ byteComplete (wDataBit p s.wr).wcnt = true := by
    rw [byteComplete_eq_true]
    exact (Count.succ_mod_eight s.wr.wcnt).trans_ne h8
  rw [writeFromBody, wBody, if_pos h, wSkipSync_data hdata]
  dsimp only
  rw [if_neg hlast, Turn.andThen_done]

/-- The eighth data bit of a body byte the buffer does not hold (20_memory.md R68). -/
theorem writeFromBody_outside (h : s.wr.wcnt.toNat < 8 * s.wr.wblen.toNat)
    (h8 : (s.wr.wcnt.toNat + 1) % 8 = 0) (hout : c.bodyMax ≤ (s.wr.wcnt + 1).toNat / 8 - 1) :
    writeFromBody c p s = .fault .bodyIndex := by
  obtain ⟨hdata, hlast⟩ := eighthBit_isData_and_completes h8
  rw [writeFromBody, wBody, if_pos h, wSkipSync_data hdata]
  dsimp only
  rw [if_pos (by exact hlast), if_pos (by exact hout), Turn.andThen_fault]

/-- The end of the body (42_write_fsm.md R207). -/
theorem writeFromBody_end (h : 8 * s.wr.wblen.toNat ≤ s.wr.wcnt.toNat) :
    writeFromBody c p s = writeFromBodyCks c p
      (s.setWr { s.wr with wstate := 9, wcnt := 0, wsync := false, wcks := 0 }) := by
  rw [writeFromBody, wBody, if_neg (Nat.not_lt.2 h), Turn.andThen_again]

/-- No body is as long as the counter is wide (42_write_fsm.md R215). -/
theorem body_wcnt_succ (h : s.wr.wcnt.toNat < 8 * s.wr.wblen.toNat) :
    (s.wr.wcnt + 1).toNat = s.wr.wcnt.toNat + 1 :=
  Count.toNat_succ (by have := s.wr.wblen.isLt; omega)

/-- Settles O34: W.BODY's five cases. -/
theorem writeBodyRebuildsTheBody : Obligations.WriteBodyRebuildsTheBody := by
  rintro s p rfl
  refine ⟨writeFromBody_sync, fun h hdata h8 => ?_, fun h h8 hin => ?_, fun c h h8 hout => ?_,
    writeFromBody_end⟩
  · rw [exec_wBody, writeFromBody_bit h hdata h8, wDataBit_eq]
    rfl
  · obtain ⟨hdata, hlast⟩ := eighthBit_isData_and_completes h8
    rw [← body_wcnt_succ h] at hin ⊢
    rw [exec_wBody, writeFromBody_store h hdata hlast hin, wDataBit_eq, shiftIn_byte]
    rfl
  · rw [← body_wcnt_succ h] at hout
    exact writeFromBody_outside h h8 hout

/-- The stop pulse where the snapshot leaves the body buffer (log entry 12). -/
theorem writeFromStop_outside (h : c.bodyMax < s.wr.wblen.toNat) :
    writeFromStop c long s = .fault .bodyIndex := by
  rw [writeFromStop, wStop, if_pos rfl, if_pos h, Turn.andThen_fault]

/-- A SHORT pulse where the stop pulse has to stand (42_write_fsm.md R210). -/
theorem writeFromStop_short : writeFromStop c short s = .next (s.violateWrite .wStopMismatch 0 0) := by
  rw [writeFromStop, wStop, if_neg (by decide), Turn.andThen_done]
  rfl

/-- Settles O35: W.STOP's three cases. -/
theorem writeStopPersistsOrGivesUp : Obligations.WriteStopPersistsOrGivesUp := by
  refine fun s => ⟨fun hp hmax => ?_, fun c => writeFromStop_outside, fun hp => ?_⟩
  · rw [exec_wStop, hp, writeFromStop_long hmax]
    rfl
  · rw [exec_wStop, hp, writeFromStop_short]
    rfl

/-- A pulse of Skip(10) (42_write_fsm.md R209). -/
theorem writeFromSkip10_pulse (h : s.wr.wcnt.toNat < c.wSkip10 s.wr.wblen) :
    writeFromSkip10 c p s = .next (s.setWr { s.wr with wcnt := s.wr.wcnt + 1 }) := by
  rw [writeFromSkip10, wSkip10, if_pos h, Turn.andThen_done]

/-- The end of Skip(10) (42_write_fsm.md R209). -/
theorem writeFromSkip10_end (h : c.wSkip10 s.wr.wblen ≤ s.wr.wcnt.toNat) :
    writeFromSkip10 c p s = writeFromStop c p (s.setWr { s.wr with wstate := 13, wcnt := 0 }) := by
  rw [writeFromSkip10, wSkip10, if_neg (Nat.not_lt.2 h), Turn.andThen_again]

/-- Settles O36: past the count W.SKIP10 is W.STOP, whose two outcomes see neither the state code nor
the counter. -/
theorem writeSkip10CountsThenStops : Obligations.WriteSkip10CountsThenStops := by
  refine fun s => ⟨fun c p => writeFromSkip10_pulse, writeFromSkip10_pulse, fun h => ?_⟩
  have hstop : exec .wSkip10 s = exec .wStop (s.setWr { s.wr with wstate := 13, wcnt := 0 }) :=
    writeFromSkip10_end h
  obtain ⟨hlong, -, hshort⟩ := writeStopPersistsOrGivesUp (s.setWr { s.wr with wstate := 13, wcnt := 0 })
  exact ⟨hstop, fun hp hmax => hstop.trans (hlong hp hmax), fun hp => hstop.trans (hshort hp)⟩

/-- Settles O37: the seven codes share one handler. -/
theorem unknownWriteStateLogsAndResets : Obligations.UnknownWriteStateLogsAndResets :=
  fun s _ => exec_wUnknown s

end Sys2Proof.Machine
end

section
/-!
What a write stores and when it raises a PERSIST: the one byte an eighth data bit stores (42_write_fsm.md
R204, R207), and the three places of the write cursor at which a LONG pulse ends a whole write (R208 to
R210, R213).
-/
namespace Sys2Proof.Machine

variable {c : Config} {i : Instr} {s t : State} {p : Bit}

theorem State.sameBuffers_of_eq (h : t.header = s.header ∧ t.body = s.body) : s.sameBuffers t :=
  ⟨fun a => by rw [h.1], fun a => by rw [h.2]⟩

theorem WriteKeeps.reads_same (h : WriteKeeps c p s t) : s.sameBuffers t :=
  State.sameBuffers_of_eq h.sameBuffers

/-- Every write handler but W.HEADER and W.BODY keeps both buffers. -/
theorem exec_writeState_sameBuffers (hi : i.space = .writeState) (hh : i ≠ .wHeader) (hb : i ≠ .wBody)
    (h : exec i s = .next t) : s.sameBuffers t := by
  obtain hk | ⟨he, -⟩ | ⟨he, -⟩ | ⟨-, hw⟩ := exec_write_cases hi h
  · exact hk.reads_same
  · exact absurd he hh
  · exact absurd he hb
  · exact (writeFromIdle_keeps hw).reads_same

/-- A WRITE_BIT that is no accepted falling edge keeps both buffers (40_interface_ops.md R132). -/
theorem exec_writeBit_sameBuffers {b : Bit} (hn : ¬ entersWrite s)
    (h : exec (.writeBit b) s = .next t) : s.sameBuffers t := by
  obtain ⟨line, time, rfl⟩ | ⟨-, hm, hs, hl, -⟩ := execWriteBit_cases h
  · exact State.sameBuffers_of_eq ⟨rfl, rfl⟩
  · exact absurd ⟨hm, hs, hl⟩ hn

/-- The one header byte an eighth data bit stores (42_write_fsm.md R204). -/
theorem StoresHeader.read_other {a : Nat} (h : StoresHeader c s t) (hc : c.hdrBits < 2 ^ 32)
    (ha : ¬ (s.wr.wcnt.toNat < c.hdrBits ∧ (s.wr.wcnt.toNat + 1) % 8 = 0 ∧
      a = (s.wr.wcnt.toNat + 1) / 8 - 1)) : t.header.read a = s.header.read a := by
  obtain ⟨hlt, h8, wr, v, rfl⟩ := h
  rw [Count.toNat_succ (by omega)] at h8 ⊢
  exact Memory.read_write_other v fun ha' => ha ⟨hlt, h8, ha'⟩

/-- The one body byte an eighth data bit stores (42_write_fsm.md R207). -/
theorem StoresBody.read_other {a : Nat} (h : StoresBody c s t)
    (ha : ¬ (s.wr.wcnt.toNat < 8 * s.wr.wblen.toNat ∧ (s.wr.wcnt.toNat + 1) % 8 = 0 ∧
      a = (s.wr.wcnt.toNat + 1) / 8 - 1)) : t.body.read a = s.body.read a := by
  obtain ⟨hlt, h8, -, wr, v, rfl⟩ := h
  rw [body_wcnt_succ hlt] at h8 ⊢
  exact Memory.read_write_other v fun ha' => ha ⟨hlt, h8, ha'⟩

/-- Settles O42: only W.HEADER and W.BODY store, each at the index of the byte it completes. -/
theorem writeHandlersStoreOneByteOnly : Obligations.WriteHandlersStoreOneByteOnly := by
  refine fun s t => ⟨fun h => ?_, fun h => ?_, fun i hi hh hb h =>
    exec_writeState_sameBuffers hi hh hb h, fun hoff b h => exec_writeBit_sameBuffers ?_ h⟩
  · obtain ⟨wr, rfl⟩ | hs := writeFromHeader_next (c := Config.machine) (by simp) h
    · exact ⟨fun _ => rfl, fun _ _ => rfl⟩
    · refine ⟨fun a => ?_, fun a => hs.read_other (by simp)⟩
      obtain ⟨-, -, wr, v, rfl⟩ := hs
      rfl
  · obtain ⟨wr, rfl⟩ | hs := writeFromBody_next (c := Config.machine) (by simp) h
    · exact ⟨fun _ => rfl, fun _ _ => rfl⟩
    · refine ⟨fun a => ?_, fun a => hs.read_other⟩
      obtain ⟨-, -, -, wr, v, rfl⟩ := hs
      rfl
  · rintro ⟨hm, hs, hl⟩
    simp [hm, hs, hl] at hoff

theorem State.persisted_of_events_eq (h : t.events = s.events) : t.persisted = s.persisted := by
  rw [State.persisted, State.persisted, h]

/-- A log event is no PERSIST. -/
theorem State.persisted_of_log {code : LogCode} {a b : Count}
    (h : t.events = s.events ++ [.log code a b]) : t.persisted = s.persisted := by
  simp [State.persisted, h, Event.isLog]

theorem State.persisted_ne_of_persist {h b : List Byte} {n : Half}
    (he : t.events = s.events ++ [.persist h b n]) : t.persisted ≠ s.persisted := by
  simp [State.persisted, he, Event.isLog]

theorem wChecksumPulse_persisted {code : LogCode} :
    (wChecksumPulse c code p s).persisted = s.persisted := by
  obtain ⟨wr, e⟩ | ⟨a, b, wr, e⟩ := wChecksumPulse_effect c code p s
  · exact State.persisted_of_events_eq (by rw [e]; rfl)
  · exact State.persisted_of_log (code := code) (a := a) (b := b) (by rw [e]; rfl)

/-- Skip(10) raises no PERSIST before its count is reached (42_write_fsm.md R209). -/
theorem writeFromSkip10_persisted (hlt : s.wr.wcnt.toNat < c.wSkip10 s.wr.wblen)
    (h : writeFromSkip10 c p s = .next t) : t.persisted = s.persisted := by
  rw [writeFromSkip10_pulse hlt] at h
  cases h; rfl

/-- W.BODYCKS raises no PERSIST while a bit is missing or Skip(10) has pulses to take
(42_write_fsm.md R208, R209). -/
theorem writeFromBodyCks_persisted (hn : ¬ (c.cksBits ≤ s.wr.wcnt.toNat ∧ c.wSkip10 s.wr.wblen = 0))
    (h : writeFromBodyCks c p s = .next t) : t.persisted = s.persisted := by
  by_cases hlt : s.wr.wcnt.toNat < c.cksBits
  · rw [writeFromBodyCks_pulse hlt] at h
    cases h; exact wChecksumPulse_persisted
  · have hle : c.cksBits ≤ s.wr.wcnt.toNat := Nat.le_of_not_lt hlt
    have hpos : 0 < c.wSkip10 s.wr.wblen := Nat.pos_of_ne_zero fun h0 => hn ⟨hle, h0⟩
    rw [writeFromBodyCks_end hle] at h
    exact (writeFromSkip10_persisted (by exact hpos) h).trans rfl

theorem writeFromBody_persisted (hc : 0 < c.cksBits) (h : writeFromBody c p s = .next t) :
    t.persisted = s.persisted := by
  obtain ⟨wr, rfl⟩ | ⟨-, -, -, wr, v, rfl⟩ := writeFromBody_next hc h <;> rfl

theorem writeFromSkip4_persisted (hc : 0 < c.cksBits) (h : writeFromSkip4 c p s = .next t) :
    t.persisted = s.persisted := by
  obtain ⟨wr, e⟩ := writeFromSkip4_cursor c p s hc
  cases e.symm.trans h; rfl

theorem writeFromHdrCks_persisted (hc : 0 < c.cksBits) (h : writeFromHdrCks c p s = .next t) :
    t.persisted = s.persisted := by
  by_cases hlt : s.wr.wcnt.toNat < c.cksBits
  · rw [writeFromHdrCks_pulse hlt] at h
    cases h; exact wChecksumPulse_persisted
  · rw [writeFromHdrCks_end (Nat.le_of_not_lt hlt)] at h
    exact (writeFromSkip4_persisted hc h).trans rfl

theorem writeFromHeader_persisted (hc : 0 < c.cksBits) (h : writeFromHeader c p s = .next t) :
    t.persisted = s.persisted := by
  obtain ⟨wr, rfl⟩ | ⟨-, -, wr, v, rfl⟩ := writeFromHeader_next hc h <;> rfl

theorem writeFromPreamble_persisted (hc : 0 < c.cksBits) (h : writeFromPreamble c p s = .next t) :
    t.persisted = s.persisted := by
  by_cases hlt : s.wr.wcnt.toNat < c.wPreLen
  · rw [writeFromPreamble_pulse hlt] at h
    split at h
    · cases h; rfl
    · cases h; exact State.persisted_of_log rfl
  · rw [writeFromPreamble_end (Nat.le_of_not_lt hlt)] at h
    exact (writeFromHeader_persisted hc h).trans rfl

theorem writeFromIdle_persisted (hc : 0 < c.cksBits) (h : writeFromIdle c p s = .next t) :
    t.persisted = s.persisted :=
  (writeFromPreamble_persisted hc h).trans rfl

/-- The write handlers that raise a PERSIST, and where (42_write_fsm.md R208 to R210). -/
theorem exec_writeState_raises (hi : i.space = .writeState) (h : exec i s = .next t)
    (hne : t.persisted ≠ s.persisted) :
    (i = .wBodyCks ∧ 16 ≤ s.wr.wcnt.toNat ∧ Config.machine.wSkip10 s.wr.wblen = 0) ∨
      (i = .wSkip10 ∧ Config.machine.wSkip10 s.wr.wblen ≤ s.wr.wcnt.toNat) ∨ i = .wStop := by
  have hc : 0 < Config.machine.cksBits := by simp
  cases i with
  | wIdle => exact absurd (writeFromIdle_persisted hc h) hne
  | wPreamble => exact absurd (writeFromPreamble_persisted hc h) hne
  | wHeader => exact absurd (writeFromHeader_persisted hc h) hne
  | wHdrCks => exact absurd (writeFromHdrCks_persisted hc h) hne
  | wSkip4 => exact absurd (writeFromSkip4_persisted hc h) hne
  | wBody => exact absurd (writeFromBody_persisted hc h) hne
  | wBodyCks => exact .inl ⟨rfl, not_not.1 fun hn => hne (writeFromBodyCks_persisted hn h)⟩
  | wSkip10 =>
    exact .inr (.inl ⟨rfl, Nat.le_of_not_lt fun hlt => hne (writeFromSkip10_persisted hlt h)⟩)
  | wStop => exact .inr (.inr rfl)
  | readBit | writeBit _ | reset | preload | setMotor _ | setSense _ | senseToggle => cases hi
  | rIdle | rPreamble | rHeader | rHdrCks | rUnknown4 | rUnknown5 | rUnknown6 | rBodyPre | rBody
  | rBodyCks | rUnknown10 | rUnknown11 | rUnknown12 | rStop | rUnknown14 | rUnknown15 => cases hi
  | _ => cases h; exact absurd (State.persisted_of_log rfl) hne

/-- A write handler that raises a PERSIST has done what W.STOP does on a LONG pulse (42_write_fsm.md
R210). -/
theorem exec_writeState_persists (hi : i.space = .writeState) (h : exec i s = .next t)
    (hne : t.persisted ≠ s.persisted) :
    pulseInHand Config.machine s = long ∧ t = (s.persist Config.machine).resetAll := by
  obtain hk | ⟨-, -, -, wr, v, rfl⟩ | ⟨-, -, -, -, wr, v, rfl⟩ | ⟨-, hw⟩ := exec_write_cases hi h
  · cases hk with
    | cursor wr he => subst he; exact absurd rfl hne
    | logged code a b wr he => subst he; exact absurd (State.persisted_of_log rfl) hne
    | persisted hp hn he => exact ⟨hp, he⟩
  · exact absurd rfl hne
  · exact absurd rfl hne
  · exact absurd (writeFromIdle_persisted (by simp) hw) hne

/-- Where the write cursor stands when a PERSIST is raised, by its state code. -/
theorem exec_decodeWriteCode_raises (h : exec (decodeWriteCode s.wr.wstate) s = .next t)
    (hne : t.persisted ≠ s.persisted) :
    (s.wr.wstate = 9 ∧ 16 ≤ s.wr.wcnt.toNat ∧ Config.machine.wSkip10 s.wr.wblen = 0) ∨
      (s.wr.wstate = 10 ∧ Config.machine.wSkip10 s.wr.wblen ≤ s.wr.wcnt.toNat) ∨ s.wr.wstate = 13 := by
  obtain ⟨hcks, hskip, hstop⟩ : (decodeWriteCode s.wr.wstate = .wBodyCks → s.wr.wstate = 9) ∧
      (decodeWriteCode s.wr.wstate = .wSkip10 → s.wr.wstate = 10) ∧
      (decodeWriteCode s.wr.wstate = .wStop → s.wr.wstate = 13) := by
    generalize s.wr.wstate = code
    revert code; decide
  exact (exec_writeState_raises (decodeWriteCode_space _) h hne).imp (.imp_left hcks)
    (.imp (.imp_left hskip) hstop)

theorem ReadFrame.persisted (h : ReadFrame s t) : t.persisted = s.persisted := by
  obtain he | ⟨-, he⟩ := h.events
  · exact State.persisted_of_events_eq he
  · exact State.persisted_of_log he

/-- Every operation but WRITE_BIT raises no PERSIST. -/
theorem exec_command_persisted (hi : i.space = .command) (hw : ∀ b, i ≠ .writeBit b)
    (h : exec i s = .next t) : t.persisted = s.persisted := by
  obtain hr | (⟨b, rfl⟩ | hi') | hg | rfl | rfl := instr_sides i
  · exact (exec_readSide_frame hr h).persisted
  · exact absurd rfl (hw b)
  · rw [hi] at hi'; cases hi'
  · obtain ⟨m, n, rfl⟩ := exec_gateOp hg h; rfl
  · cases h; rfl
  · obtain ⟨-, -, rfl⟩ := preload_next h; rfl

/-- A step that raises a PERSIST runs the write dispatcher. -/
theorem step_persists (h : step s = .next t) (hne : t.persisted ≠ s.persisted) :
    ∃ inp rest, s.queue = inp :: rest ∧ inp.cmd = 0x20#8 ∧ entersWrite s ∧
      exec (decodeWriteCode s.wr.wstate)
        ((s.accept inp.side rest).setWr { s.wr with wline := false }) = .next t := by
  obtain ⟨-, rfl⟩ | ⟨inp, rest, i, hq, hd, he⟩ := step_next h
  · exact absurd rfl hne
  · obtain ⟨b, rfl⟩ : ∃ b, i = .writeBit b := not_forall_not.1 fun hw =>
      hne ((exec_command_persisted (decodeCommand_space hd) hw he).trans rfl)
    obtain ⟨line, time, rfl⟩ | ⟨rfl, hm, hs, hl, he⟩ := execWriteBit_cases he
    · exact absurd rfl hne
    · exact ⟨inp, rest, hq, (decodeCommand_eq_writeBit_false _).1 hd, ⟨hm, hs, hl⟩, he⟩

/-- Settles O46: such a step is a falling edge on the stop pulse, and what it leaves is W.STOP's. -/
theorem persistOnlyAtTheEndOfAWholeWrite : Obligations.PersistOnlyAtTheEndOfAWholeWrite := by
  intro s t h b n hstep hev
  have hne := State.persisted_ne_of_persist hev
  obtain ⟨inp, rest, hq, hcmd, ⟨hm, hs, hl⟩, he⟩ := step_persists hstep hne
  have hplace := exec_decodeWriteCode_raises
    (s := (s.accept inp.side rest).setWr { s.wr with wline := false }) he hne
  obtain ⟨hlong, rfl⟩ := exec_writeState_persists (decodeWriteCode_space _) he hne
  have hpayload : Event.persist (s.header.bytes 128) (s.body.bytes s.wr.wblen.toNat) s.wr.wblen =
      .persist h b n := List.singleton_injective (List.append_cancel_left hev)
  obtain ⟨rfl, rfl, rfl⟩ := Event.persist.inj hpayload
  exact ⟨⟨inp, rest, hq, hcmd, hlong⟩, hm, hs, hl, hplace, rfl, rfl, rfl, rfl, rfl, rfl⟩

end Sys2Proof.Machine
end

section
/-!
The reader's stream given to the writer (42_write_fsm.md R214): the writer's own format under the RT
parameters; where the two gaps differ, the first pulse the writer does not expect (R203).
-/
namespace Sys2Proof.Machine

variable {c : Config} {s : State} {h b : List Byte} {k : Nat} {p : Bit} {ts : List (Time × Time)}

/-- Both big preambles are one where the gaps agree (30_encoding.md R95, R102). -/
theorem writePreamble_eq_bigPreamble (hgap : c.wbgapL = c.rBgap) : writePreamble c = bigPreamble c := by
  have hlen : c.wPreLen = c.rPreLen := by rw [Config.wPreLen, Config.rPreLen, hgap]
  have hpulse : wprePulse c = prePulse c := funext fun k => by rw [wprePulse, prePulse, hgap]
  rw [writePreamble, bigPreamble, hlen, hpulse]

/-- Under the RT parameters the reader's stream is a stream of the writer's format: Skip(4) takes the body
preamble, and Skip(10) takes nothing (42_write_fsm.md R214). -/
theorem readStream_eq_writeStream (hgap : c.wbgapL = c.rBgap) :
    readStream c h b = writeStream c h b (bodyPreamble c) [] := by
  rw [readStream, writeStream, writePreamble_eq_bigPreamble hgap, List.append_nil]

/-- Settles O52: the stream is one the writer accepts. -/
theorem roundTripUnderTheReadersParameters : Obligations.RoundTripUnderTheReadersParameters := by
  intro c s h b ts hc hgap h4 h10 hh hb hmax hts hbuf hm hs hwr
  rw [readStream_eq_writeStream hgap] at hts
  obtain ⟨t, hrun, hev, hheader, hbody, -, -, hzero, hmotor, hsense, -⟩ :=
    writerAcceptsItsFormat c s h b (bodyPreamble c) [] ts hc hh hb hmax
      ((bodyPreamble_length c).trans h4.symm) (h10 _).symm hts hbuf hm hs hwr
  exact ⟨t, hrun, hev, hheader, hbody, hzero, hmotor, hsense⟩

/-- W.PREAMBLE takes the first `k` pulses it expects (42_write_fsm.md R203). -/
theorem writePreamble_run_upto (hc : c.wPreLen < 2 ^ 32) (hk : k ≤ c.wPreLen) :
    PulseRun (WritesPulse c) (s.writeAt 1 0 false 0 0 0 0) ((List.range k).map (wprePulse c))
      (s.writeAt 1 k false 0 0 0 0) := by
  refine .of_range (fun m => s.writeAt 1 m false 0 0 0 0) fun m hm => ⟨fun t0 now => ?_, rfl, rfl⟩
  have hlt : m < c.wPreLen := by omega
  change writeFromPreamble c _ _ = _
  rw [writeFromPreamble_pulse (by rwa [writeAt_wcnt (hlt.trans hc)]), writeAt_wcnt (hlt.trans hc),
    if_pos rfl]
  exact congrArg Host.Outcome.next writeAt_count

/-- What W.PREAMBLE leaves of a write whose pulse at position `k` is `p` and not the one expected
(42_write_fsm.md R202, R203). -/
def State.mismatched (s : State) (k : Nat) (p : Bit) : State :=
  (s.setTcount 0).violateWrite .wPreambleMismatch (BitVec.ofNat 32 k) (zextBit p)

/-- The pulse at position `k` that is not the one expected (42_write_fsm.md R203). -/
theorem writePulse_mismatch (hc : c.wPreLen < 2 ^ 32) (hk : k < c.wPreLen) (hp : p ≠ wprePulse c k)
    (t0 now : Time) :
    writePulse c p (((s.setTcount 0).writeAt 1 k false 0 0 0 0).clocked t0 now) =
      .next ((s.mismatched k p).atTime now) := by
  change writeFromPreamble c _ _ = _
  rw [writeFromPreamble_pulse (by rwa [writeAt_wcnt (hk.trans hc)]), writeAt_wcnt (hk.trans hc),
    if_neg hp]
  rfl

/-- The expected pulses before position `k`, from W.IDLE, and the mismatch after them; with `k` = 0 the
mismatch is W.IDLE's own pulse. -/
theorem writePreamble_mismatch (hc : c.wPreLen < 2 ^ 32) (hk : k < c.wPreLen) (hp : p ≠ wprePulse c k) :
    ∃ e, PulseRun (WritesPulse c) (s.setWr WriteCursor.zero) ((List.range k).map (wprePulse c)) e ∧
      ∀ t0 now, writePulse c p (e.clocked t0 now) = .next ((s.mismatched k p).atTime now) := by
  obtain rfl | hpos := Nat.eq_zero_or_pos k
  · have hidle (t0 now : Time) : writePulse c p ((s.setWr WriteCursor.zero).clocked t0 now) =
        writePulse c p (((s.setTcount 0).writeAt 1 0 false 0 0 0 0).clocked t0 now) := rfl
    exact ⟨_, .nil _, fun t0 now => (hidle t0 now).trans (writePulse_mismatch hc hk hp t0 now)⟩
  · refine ⟨_, .of_actsAs actsAs_writePreamble (writePreamble_run_upto hc hk.le) ?_,
      writePulse_mismatch hc hk hp⟩
    simpa using hpos.ne'

/-- A write that shows the expected pulses up to position `k` and another one there. -/
theorem firstMismatch (hc : c.wPreLen < 2 ^ 32) (hk : k < c.wPreLen) (hp : p ≠ wprePulse c k)
    (hts : pulseSymbols c ts = (List.range k).map (wprePulse c) ++ [p]) (hg : writeGate s = true)
    (hwr : s.wr = WriteCursor.zero) :
    ∃ now, writePulses c ts s = .next ((s.mismatched k p).atTime now) := by
  have hstart : (s.setWr WriteCursor.zero).clocked 0 s.port.now = s := by
    cases s; cases hwr; rfl
  obtain ⟨e, hrun, hlast⟩ := writePreamble_mismatch (s := s) hc hk hp
  obtain ⟨hge, ts', x, y, hsym, heq⟩ := hrun.writePulses hg hts 0 s.port.now
  obtain ⟨now, hend⟩ := writePulses_single hsym hge hlast x y
  rw [hstart] at heq
  exact ⟨now, heq.trans hend⟩

/-- The gap of a preamble (30_encoding.md R95). -/
theorem preamblePulse_gap {gap mark : Nat} (hk : k < gap) : preamblePulse gap mark k = short := by
  rw [preamblePulse, if_pos hk]

/-- The first pulse of a tape mark (30_encoding.md R95). -/
theorem preamblePulse_mark (gap : Nat) {mark : Nat} (hm : 2 ≤ mark) :
    preamblePulse gap mark gap = long := by
  rw [preamblePulse, if_neg (Nat.lt_irrefl gap), if_pos (by omega)]

/-- Up to position `k`, not past either gap, the reader sends what the writer expects. -/
theorem bigPreamble_take_succ (hr : k ≤ c.rBgap) (hw : k ≤ c.wbgapL) :
    (bigPreamble c).take (k + 1) = (List.range k).map (wprePulse c) ++ [prePulse c k] := by
  have hlen : k + 1 ≤ c.rPreLen := by rw [Config.rPreLen]; omega
  rw [bigPreamble, ← List.map_take, List.take_range, Nat.min_eq_left hlen, List.range_succ, List.map_append,
    List.map_singleton]
  congr 1
  refine List.map_congr_left fun m hm => ?_
  have hmk : m < k := List.mem_range.1 hm
  exact (preamblePulse_gap (by omega)).trans (preamblePulse_gap (by omega)).symm

/-- Settles O53: at the end of the shorter gap one side is in its tape mark and the other still in its
gap. -/
theorem firstMismatchIsWhereTheGapsDiffer : Obligations.FirstMismatchIsWhereTheGapsDiffer := by
  intro c s ts hc hbtm hm hs hwr
  have hg : writeGate s = true := by rw [writeGate, hm, hs]; rfl
  refine ⟨fun hlt hts => ?_, fun hlt hts => ?_⟩
  · have hsent : prePulse c c.rBgap = long := preamblePulse_mark _ hbtm
    have hexpected : wprePulse c c.rBgap = short := preamblePulse_gap hlt
    rw [bigPreamble_take_succ le_rfl hlt.le, hsent] at hts
    obtain ⟨now, hrun⟩ := firstMismatch hc.wpre_count (by rw [Config.wPreLen]; omega)
      (by rw [hexpected]; decide) hts hg hwr
    exact ⟨_, hrun, rfl, rfl, rfl, rfl⟩
  · have hsent : prePulse c c.wbgapL = short := preamblePulse_gap hlt
    have hexpected : wprePulse c c.wbgapL = long := preamblePulse_mark _ hbtm
    rw [bigPreamble_take_succ hlt.le le_rfl, hsent] at hts
    obtain ⟨now, hrun⟩ := firstMismatch hc.wpre_count (by rw [Config.wPreLen]; omega)
      (by rw [hexpected]; decide) hts hg hwr
    exact ⟨_, hrun, rfl, rfl, rfl, rfl⟩

end Sys2Proof.Machine
end

section
/-!
The two steps that execute no operation, and the power-on state (70_reset_and_hazards.md R270,
30_encoding.md R112, 93_implementation_defined.md U3, 10_state.md R49).
-/
namespace Sys2Proof.Machine

/-- R270: with nothing pending the block does nothing. -/
theorem step_of_queue_nil {s : State} (hq : s.queue = []) : step s = .next s := by
  simp only [step, fetch, hq]

/-- U3: a pending word that is no operation is refused by its own name. -/
theorem step_of_notAnOperation {s : State} {inp : Input} {rest : List Input}
    (hq : s.queue = inp :: rest) (hd : decodeCommand inp.cmd = none) :
    step s = .refused (.notAnOperation inp.cmd) := by
  simp only [step, fetch, hq, decode, hd]

/-- Settles O9: one lemma per clause. -/
theorem stepWithoutAnOperation : Obligations.StepWithoutAnOperation :=
  ⟨fun _ => step_of_queue_nil, fun _ _ _ => step_of_notAnOperation⟩

/-- Settles O11: the fields are those of `State.reset`, whose buffers list no byte and whose queue is
empty. -/
theorem powerOnStateIsAllZero : Obligations.PowerOnStateIsAllZero :=
  ⟨rfl, rfl, rfl, rfl, rfl, Memory.read_nil, Memory.read_nil, rfl, step_of_queue_nil rfl⟩

end Sys2Proof.Machine
end
